-- ==== Sys2Proof/Word.lean ====
section
/-! DEFINITION. The word types of the IRB-4 (32-bit registers and words, bytes) and their plainest arithmetic. -/

namespace Sys2Proof

/-- A 32-bit register or memory word (06 R212 ff.: each frame reads or writes one 32-bit register). -/
abbrev Word := BitVec 32

/-- One byte of the byte-addressed internal space (00 R13). -/
abbrev Byte := BitVec 8

/-- A counter that saturates at `cap` (the counters of the register tables). -/
def satInc (cap n : Nat) : Nat := if n < cap then n + 1 else n

/-- A Boolean as the number of a one-bit field. -/
def b2n (b : Bool) : Nat := if b then 1 else 0

end Sys2Proof
end

