-- ==== Sys2Proof/Syntax.lean ====
section
/-! DEFINITION. The commands of the block: one constructor of `Instr` for each row of
spec/opcode_table.json. An operand is what the row's event carries from outside: the bits of a frame,
the level or value the world shows, the choice among the cases the rule names. -/

namespace Sys2Proof

/-- Causes of a power-on reset (05 R176, `RST_CAUSE.LAST` of R208). -/
inductive PorCause where | supply | pin | bor | clk
  deriving DecidableEq, Repr

/-- What the power-on probes find: a tile that answers (00 R11), XT32 that starts (05 R208). -/
structure Probe where
  clay0 : Bool
  clay1 : Bool
  iot : Bool
  xt32 : Bool
  deriving DecidableEq, Repr

/-- Width of a low pulse on RESET_N (18 R691, R709). -/
inductive PulseWidth where | upTo1us | between | atLeast10us
  deriving DecidableEq, Repr

/-- Whether a frame is part-received on SLP0, on SLP1, as a quiesce check looks (04 R132). -/
structure RxPart where
  slp0 : Bool
  slp1 : Bool
  deriving DecidableEq, Repr

abbrev RxPart.none : RxPart := ⟨false, false⟩

/-- Levels on the strap balls and TEST_EN at power-on reset release (02 R86, R87). -/
structure StrapLevels where
  cp : Bool
  addr : Bool
  hpdef : Bool
  testEn : Bool
  deriving DecidableEq, Repr

/-- The always-on input an event of the selector concerns; `both` is the same t_DET or t_SW (03 R101, R121). -/
inductive SelIn where | a | b | both
  deriving DecidableEq, Repr

/-- What else happens as an input qualifies: nothing; VAON_A fails before its switch closes; VAON_B fails at the same moment (03 R121). -/
inductive QualRace where | alone | aFails | bFails
  deriving DecidableEq, Repr

/-- What is common to every control-port write frame: its `SEQ` tag, its CRC byte as received, and on an I2C bus the address it was
sent to (06 R214, R219, R223, R224). -/
structure Fr where
  seq : BitVec 4
  crc : Byte
  addr : BitVec 7
  deriving DecidableEq, Repr

/-- What is common to every control-port read frame: its `SEQ`, whether its index byte ended less than 2.5 us after an FIO request
that found FIO stopped (06 R222), and on an I2C bus the address it was sent to. `pre` are the reads that came just before it, oldest
first, tag and index: the table has no row for a read of most registers, but each sends a status byte (06 R217). -/
structure Rd where
  seq : BitVec 4
  early : Bool
  addr : BitVec 7
  pre : List (BitVec 4 × Byte)
  deriving DecidableEq, Repr

/-- What X3 finds when it starts XT24 (05 R175). -/
inductive Xt24Start where | good | noEdge | outOfRange
  deriving DecidableEq, Repr

/-- The memories of the wipe-rate table (05 R189). -/
inductive WipeMem where
  | tsr | teLs | qdt | scc | slp0 | slp1 | supRam | sce | sed | hpRules | clay0 | clay1
  deriving DecidableEq, Repr

/-- The Slip ports (07 R259). -/
inductive Port where | slp0 | slp1
  deriving DecidableEq, Repr

/-- A received TS set (07 R276): whether it is a good one, and its fields. -/
structure TsSet where
  good : Bool
  skewed : Bool
  lanesOk : Bool
  version : Byte
  rate : BitVec 2
  acked : Bool
  fresh : Bool
  nextRx : BitVec 16
  deriving DecidableEq, Repr

/-- A frame of the Slip port with good framing (07 R270): `rsvd` holds the reserved bits of header bytes 0 to 9, first to last, `rsvd2`
header bytes 14 and 15, `crc` the CRC-32 as sent. -/
structure SlipFrame where
  typ : BitVec 4
  vc : BitVec 2
  qid : BitVec 14
  len : BitVec 13
  seq : BitVec 16
  job : BitVec 16
  qual : BitVec 2
  failed : Bool
  tstamp : Word
  rsvd : BitVec 12
  rsvd2 : BitVec 16
  payload : List Byte
  crc : Word
  deriving DecidableEq, Repr

/-- Why a frame is bad (07 R292): its CRC, its framing, a sequence number ahead of the one expected. -/
inductive BadFrameKind where
  | crc (fr : SlipFrame)
  | framing
  | ahead
  deriving DecidableEq, Repr

/-- What makes a control column bad (07 R268): a code or disparity error or a K symbol on a data lane; or its bytes, the K symbol of
lane 0 and lanes 1 to 3, of which the check byte is wrong. -/
inductive BadColumn where
  | symbol
  | check (k d1 d2 d3 : Byte)
  deriving DecidableEq, Repr

/-- What a completed sensor transfer brings (08 R339 to R342). -/
inductive SampleIn where
  /-- I3C, I2C or SPI: the bytes read, b0 first. -/
  | bytes (bs : List Byte)
  /-- The target NACKed its address or register byte, or an I3C target ended the read early; `sdaLow` when
  the transfer ended with SDA held low (R343). -/
  | busFault (sdaLow : Bool)
  /-- The voltages at the ADC's conversions, in order, in nanovolts (R323); `refOk` is the reference check. -/
  | adc (nv : List Nat) (refOk : Bool)
  /-- A counter's sample. -/
  | counter
  /-- A PDM input's window. -/
  | pdm
  /-- A digital input's level. -/
  | level (l : Bool)
  deriving DecidableEq, Repr

/-- How a manual transfer ends (08 R351). -/
inductive XferEnd where
  | nack
  | ok (data : List Byte)
  deriving DecidableEq, Repr

/-- The feedback balls (09 R378). -/
inductive FbBall where | a | b
  deriving DecidableEq, Repr

/-- The engines (12 R473). -/
inductive Eng where | te0 | te1 | te2 | te3 | su | dm0 | dm1 | sce
  deriving DecidableEq, Repr

/-- What the analogue and shadow checks of a self-test show (09 R375 steps 2 and 3). -/
structure SelfTestObs where
  injectOk : Bool
  pathOk : Bool
  deriving DecidableEq, Repr

/-- The tile links: clay tile 0, clay tile 1, the I/O tile's bridge (17 R657, R673). -/
inductive Tile where | t0 | t1 | io
  deriving DecidableEq, Repr

/-- The CSI-2 receivers (17 R675). -/
inductive Csi where | r0 | r1
  deriving DecidableEq, Repr

/-- How a recovery condition arises on a link (17 R659). -/
inductive LinkFail where | replays | laneLock
  deriving DecidableEq, Repr

/-- A CSI-2 long packet as received (17 R675, R677). -/
structure CsiPacket where
  vc : BitVec 2
  vcx : Bool
  dt : BitVec 6
  headerTwoBit : Bool
  crcOk : Bool
  payload : List Byte
  deriving DecidableEq, Repr

/-- How the programming of a key or a fuse ends (16 R643, R647). -/
inductive BlowEnd where
  | good
  | mismatch
  deriving DecidableEq, Repr

/-- The commands of the block, one constructor per row of spec/opcode_table.json, in its order. An operand with a value after `:=` may
be left out, and then has that value: the ordinary case. -/
inductive Instr where
  | powerOnReset (c : PorCause) (pr : Probe)
  | resetNLow (w : PulseWidth) (pr : Probe)
  | brownOut (pr : Probe)
  | porRelease (lv : StrapLevels)
  | strapPullDisable
  /-- `lost`: the input fails again before its switch closes (03 R121). -/
  | inputPresent (i : SelIn) (lost : Bool := false)
  | inputFail (i : SelIn)
  | inputQualified (i : SelIn) (r : QualRace := .alone)
  | handoverWindowClose
  | pmuHoAck (n : BitVec 4)
  | pwrCmdRun (f : Fr) (qw : BitVec 4) (sedret : Bool)
  | pwrCmdIdle (f : Fr) (qw : BitVec 4) (sedret : Bool)
  | pwrCmdWatch (f : Fr) (qw : BitVec 4) (sedret : Bool)
  | pwrCmdHibernate (f : Fr) (qw : BitVec 4) (sedret : Bool)
  | pwrCmdOff (f : Fr) (qw : BitVec 4) (sedret : Bool)
  | abortPoint (rx : RxPart := .none)
  | quiesceTimeout (rx : RxPart := .none)
  | reversalDone
  | checkpoint (x : Xt24Start)
  | pwrGoodRise
  | pwrGoodTimeout
  | pwrGoodDrop
  | pmicScriptEntryDone (ack : Bool)
  | pwrOpTarget (f : Fr) (op : BitVec 2)
  | pllRelockDone
  | padRelease (f : Fr) (mask : BitVec 8)
  | xt32Fail (freq : Bool) (periods : Nat)
  | xt32Return
  | lrcMeasureWindow (count : Nat)
  | xt24Fail (freq : Bool)
  | pllLockLoss (pll1 : Bool) (within1ms : Bool)
  | hrcFail (freq : Bool)
  | fioFail (pr : Probe)
  | lrcFail (pr : Probe)
  | rstCtrlWarm (v : Word)
  | warmResetDone
  | islRst (v : Word)
  | islandResetRelease
  | supervisorWatchdog
  | crossing (tag : BitVec 24) (reply : Bool) (entry : Option Nat)
  | wipeDone (m : WipeMem) (eccError : Bool)
  | timSetGo (f : Fr) (key : BitVec 16)
  | slewEnd
  | alarmFire
  | timAlarmHiWrite (f : Fr) (v : Word)
  | timNowLoRead (r : Rd)
  | registerWrite (f : Fr) (idx : Byte) (v : Word)
  | cpInvalidCommand (cmd : Byte)
  | cpTruncatedFrame
  | cpFrameTimeout
  | intSet (f : Fr) (v : Word)
  | cpIaAddrWrite (f : Fr) (v : Word)
  | cpIaDataRead (r : Rd)
  | cpIaDataWrite (f : Fr) (v : Word)
  | windowPrefetchDone
  | windowWriteDone
  | doorbell (f : Fr) (v : Word)
  | doorbellRelease
  | slpEnable (f : Fr) (p : Port) (v : Word)
  | slpDisable (f : Fr) (p : Port) (v : Word)
  | slpRetrain (f : Fr) (p : Port) (v : Word)
  | trainClockOk (p : Port)
  | trainAligned (p : Port)
  | tsSetReceive (p : Port) (ts : TsSet)
  | trainStateTimeout (p : Port)
  | slipTrainingDetect (p : Port)
  | creditReceive (p : Port) (vc : BitVec 2) (cum : BitVec 14)
  | creditRefresh (p : Port)
  | ackReceive (p : Port) (n : BitVec 16)
  | nakReceive (p : Port) (n : BitVec 16)
  | badControlColumn (p : Port) (c : BadColumn := .symbol)
  | itemFrameReceive (p : Port) (fr : SlipFrame)
  | pingReceive (p : Port) (fr : SlipFrame)
  | pongReceive (p : Port) (fr : SlipFrame)
  | badFrame (p : Port) (k : BadFrameKind)
  | nakHoldoffExpiry (p : Port)
  | ingressFrameWrite (p : Port)
  | egressFrameSend (p : Port)
  | replayTimeout (p : Port)
  | rxSilenceTimeout (p : Port)
  | channelEnable (n : Fin 16) (v : Word)
  | channelDisable (n : Fin 16) (v : Word)
  | spCfgWrite (k : Fin 24) (v : Word)
  | channelSlot (n : Fin 16) (u : Nat)
  | sampleDone (n : Fin 16) (r : SampleIn)
  | slotMiss (n : Fin 16)
  /-- `sdaLow`: SDA is held low when the transfer ends (08 R343). -/
  | transferAbandon (n : Fin 16) (sdaLow : Bool := false)
  | counterEdge (c : Fin 4) (a b : Bool)
  | pcmSample (p : Fin 2) (v : BitVec 16) (changed : Bool)
  /-- VIO_SB1 reaches a level, in microvolts (08 R328). -/
  | sb1ClassChange (uv : Nat)
  | manualTransfer (iot : Bool) (v : Word)
  /-- `sdaLow`: SDA is held low when the transfer ends (08 R343). -/
  | manualTransferDone (iot : Bool) (e : XferEnd) (sdaLow : Bool := false)
  | manualTransferTimeout (iot : Bool) (sdaLow : Bool := false)
  | hpInputVerdict (n : Fin 16)
  | hpInputSce
  | sceSilenceTimeout
  | armFirstKey (f : Fr)
  | armSecondKey (f : Fr)
  | armSequenceTimeout
  | releaseKey (f : Fr)
  | disarmKey (f : Fr)
  | invalidKey (f : Fr) (key : BitVec 16)
  | hpHold (f : Fr) (v : Word)
  | hpRunst (f : Fr) (v : Word)
  | hpCtrlConfig (f : Fr) (v : Word)
  | hpTripack (f : Fr) (v : Word)
  | hpRuleWrite (f : Fr) (v : Word)
  | hpRuleRead (r : Rd)
  | selftestPeriod
  | selftestDone (o : SelfTestObs)
  | feedbackMismatch (ball : FbBall)
  | sceRun (v : Word)
  | inferenceStart (u : Nat)
  | inferenceDone
  | sceFault
  | sceMark
  | sedimentClose
  | sedQaddrWrite (f : Fr) (v : Word)
  | sedQdataRead (r : Rd)
  | sedPrefetchDone
  | qmStreamOpen (q : BitVec 14)
  | qmStreamClose (q : BitVec 14)
  | reservationGrant (e : Eng)
  | queueStallEnd (e : Eng)
  | sinkStallTimeout (q : BitVec 14)
  | eventQueueWrite
  | nop (e : Eng)
  | mark (e : Eng)
  | fence (e : Eng)
  | commit (e : Eng)
  | swait (e : Eng)
  | swaitComplete (e : Eng)
  | scTimeout (e : Eng)
  | ssig (e : Eng)
  | twait (e : Eng)
  | twaitComplete (e : Eng)
  | twaitTimeout (e : Eng)
  | enq (e : Eng)
  | deq (e : Eng)
  | mov (e : Eng)
  | gath (e : Eng)
  | scat (e : Eng)
  | mma (e : Eng)
  | conv (e : Eng)
  | dwcv (e : Eng)
  | pool (e : Eng)
  | red (e : Eng)
  | vop (e : Eng)
  | act (e : Eng)
  | qscan (e : Eng)
  | qpack (e : Eng)
  | qunpk (e : Eng)
  | rscl (e : Eng)
  | commandComplete (e : Eng)
  | watchdog (e : Eng)
  | satCntWrite (n : Fin 64) (v : Word)
  | jobAdmit
  | jobStart (i : Fin 256)
  | jobRestart (i : Fin 256)
  | ledgerCommit
  | fltPop (f : Fr) (v : Word)
  | capInstall (f : Fr) (v : Word)
  | installComplete
  | capSwap (f : Fr) (v : Word)
  | swapEffect (bad : Option Nat)
  | capUnload (f : Fr) (v : Word)
  | capAbort (f : Fr) (v : Word)
  | lcFirstKey (f : Fr) (v : Word)
  | lcKeyTimeout
  | transition (f : Fr) (v : Word)
  | lcFusesBlown (bad : Option Nat)
  | keyprog (f : Fr) (v : Word)
  | keyprogDone (e : BlowEnd)
  | keyrevoke (f : Fr) (v : Word)
  | dbgEnable (f : Fr) (v : Word)
  | dbgDisable (f : Fr) (v : Word)
  | idcode
  | bypass (code : BitVec 4)
  | extest (cells : List (Nat × Bool))
  | samplePreload (cells : List (Nat × Bool))
  | dbgacc (dr : BitVec 69)
  | patchprog (dr : BitVec 106)
  | patchprogDone (e : BlowEnd)
  | linkTrained (t : Tile)
  | beatCrcError (t : Tile)
  | tileRetrainReq (f : Fr) (t1 : Bool) (v : Word) (recent : Bool)
  | retrainDeferExpiry (t : Tile)
  | linkRecovery (t : Tile) (k : LinkFail) (recent : Bool)
  | retrainDone (t : Tile)
  | retrainTimeout (t : Tile)
  | csiEnable (r : Csi) (v : Word)
  | csiFilterWrite (r : Csi) (fl : Fin 4) (v : Word)
  | csiFrameStart (r : Csi) (vc : BitVec 2) (fnum : BitVec 16)
  | csiLine (r : Csi) (pk : CsiPacket)
  | csiFrameEnd (r : Csi) (vc : BitVec 2)
  | slowTick
  | feedbackMismatchEnd (ball : FbBall)
  | dbgaccDone
  /-- `low`: the level that DBG_TRST_N is driven to (02 R76). -/
  | testAccessPortReset (low : Bool := true)
  | ulpsEntry (r : Csi)
  | ulpsExit (r : Csi)
  | fioStop
  | reservedTypeFrameReceive (p : Port) (fr : SlipFrame)
  deriving DecidableEq, Repr

end Sys2Proof
end

