-- ==== Sys2Proof/Machine/Balls.lean ====
section
/-! DEFINITION. The 484 balls of the package: their numbers and the function of each (02 R66 to R71). A ball is numbered row by
row, 22 (r - 1) + c - 1 for row index r and column c (log 60 names boundary-scan cells so). -/

namespace Sys2Proof.Machine

open Sys2Proof

/-- A signal of the device, base die or I/O tile (02 R67). A lane is 0 to 3 (0, 1 for CSI-2), none for the clock; `neg` the N ball
of a pair. -/
inductive Signal where
  | slp (p : Port) (tx : Bool) (lane : Option Nat) (neg : Bool)
  | csi (r : Csi) (lane : Option Nat) (neg : Bool)
  | i3c (k : Nat) (sda : Bool)
  | ain (n : Nat)
  | sp (n : Nat)
  | xt24 (out : Bool)
  | xt32 (out : Bool)
  | pwrReq | pwrGood | pmicScl | pmicSda | resetN | testEn
  | strapCp | strapAddr | strapHpdef
  | cpSck | cpCsN | cpSdi | cpSdo | cpIrqN
  | haltAN | haltB | hpFbA | hpFbB
  | dbgTck | dbgTms | dbgTdi | dbgTdo | dbgTrstN
  deriving DecidableEq, Repr

/-- The function of a ball (02 R67, R68). -/
inductive BallFn where
  | vss | vio18 | vslp | vtile | vsram | vcore | vioSb1 | vaonA | vaonB | vaonOut | vaon18
  | sig (x : Signal)
  deriving DecidableEq, Repr

/-- A pair of a Slip port by its place in the order TXD0, TXD1, TXCK, TXD2, TXD3, RXD0, RXD1, RXCK, RXD2, RXD3. -/
def slpPair (p : Port) (i : Nat) (neg : Bool) : BallFn :=
  let k := i % 5
  .sig (.slp p (i < 5) (if k < 2 then some k else if k = 2 then none else some (k - 1)) neg)

/-- A pair of the CSI-2 receivers by its place in the order CSI0 D0, CK, D1, CSI1 D0, CK, D1. -/
def csiPair (i : Nat) (neg : Bool) : BallFn :=
  let k := i % 3
  .sig (.csi (if i < 3 then .r0 else .r1) (if k = 0 then some 0 else if k = 1 then none else some 1) neg)

/-- The north side: row A, or row B (`b`). -/
def northBall (b : Bool) (c : Nat) : BallFn :=
  if c = 3 ∨ c = 4 then slpPair .slp0 (c - 3) b
  else if 6 ≤ c ∧ c ≤ 8 then slpPair .slp0 (c - 4) b
  else if c = 10 ∨ c = 11 then .vslp
  else if c = 13 ∨ c = 14 then slpPair .slp0 (c - 8) b
  else if 16 ≤ c ∧ c ≤ 18 then slpPair .slp0 (c - 9) b
  else if c = 20 then .sig (.xt24 b)
  else if b && (c == 2 || c == 21) then .vio18
  else .vss

/-- The south side: row AB, or row AC (`ac`). -/
def southBall (ac : Bool) (c : Nat) : BallFn :=
  if 2 ≤ c ∧ c ≤ 5 then .sig (.ain (2 * (c - 2) + b2n ac))
  else if 7 ≤ c ∧ c ≤ 12 then .sig (.sp (2 * (c - 7) + b2n ac))
  else if c = 13 then (if ac then .vss else .vio18)
  else if 14 ≤ c ∧ c ≤ 19 then .sig (.sp (12 + 2 * (c - 14) + b2n ac))
  else if c = 20 then .vioSb1
  else if c = 21 ∨ c = 22 then .sig (.i3c (3 + b2n ac) (c == 22))
  else .vss

/-- The west side, rows C to AA: columns 1 and 2. -/
def westBalls (r : Nat) : BallFn × BallFn :=
  match r with
  | 3 => (.sig (.xt32 false), .vss)
  | 4 => (.sig (.xt32 true), .vss)
  | 5 => (.vaonA, .vaonB)
  | 6 => (.vaonOut, .vaon18)
  | 7 => (.sig .pwrReq, .sig .pwrGood)
  | 8 => (.sig .pmicScl, .sig .pmicSda)
  | 9 => (.sig .resetN, .sig .testEn)
  | 10 => (.sig .strapCp, .sig .strapAddr)
  | 11 => (.sig .strapHpdef, .vio18)
  | 12 => (.sig .cpSck, .sig .cpCsN)
  | 13 => (.sig .cpSdi, .sig .cpSdo)
  | 14 => (.sig .cpIrqN, .vss)
  | 15 => (.sig .haltAN, .sig .hpFbA)
  | 16 => (.sig .haltB, .sig .hpFbB)
  | 17 => (.vss, .vio18)
  | 18 => (.sig .dbgTck, .sig .dbgTms)
  | 19 => (.sig .dbgTdi, .sig .dbgTdo)
  | 20 => (.sig .dbgTrstN, .vss)
  | _ => (.vss, .vss)

/-- The east side, rows C to AA: column 21, or column 22 (`neg`). -/
def eastBall (r : Nat) (neg : Bool) : BallFn :=
  if r = 9 then .vtile
  else if 4 ≤ r ∧ r ≤ 8 then slpPair .slp1 (r - 4) neg
  else if 10 ≤ r ∧ r ≤ 14 then slpPair .slp1 (r - 5) neg
  else if 15 ≤ r ∧ r ≤ 20 then csiPair (r - 15) neg
  else .vss

/-- An inner ball, rows C to AA, columns 3 to 20 (02 R68). -/
def innerBall (r c : Nat) : BallFn :=
  if (r + c) % 2 = 0 then .vss
  else if c = 20 then .vtile
  else if r = 3 ∧ 4 ≤ c ∧ c ≤ 18 then .vslp
  else if r = 20 ∨ c = 3 then .vio18
  else if r = 4 ∨ r = 5 ∨ r = 18 ∨ r = 19 then .vsram
  else .vcore

/-- The function of the ball in row r (1 for A to 22 for AC) and column c (02 R66 to R68). -/
def ballFn (r c : Nat) : BallFn :=
  if r ≤ 2 then northBall (r == 2) c
  else if 21 ≤ r then southBall (r == 22) c
  else if c = 1 then (westBalls r).1
  else if c = 2 then (westBalls r).2
  else if 21 ≤ c then eastBall r (c == 22)
  else innerBall r c

/-- The function of a ball by its number. -/
def ballAt (n : Nat) : BallFn := ballFn (n / 22 + 1) (n % 22 + 1)

/-- The signal at a ball; none for a supply or ground ball. -/
def ballSignal (n : Nat) : Option Signal :=
  match ballAt n with
  | .sig x => some x
  | _ => none

/-- The signal is of the I/O tile: on an assembly without one its balls have no connection (02 R69, R70). -/
def Signal.ofIot : Signal → Bool
  | .slp .slp1 _ _ _ => true
  | .csi _ _ _ => true
  | .i3c _ _ => true
  | _ => false

/-- The boundary-scan cell of the signal observes only (16 R651). -/
def Signal.observes : Signal → Bool
  | .haltAN => true
  | .haltB => true
  | .resetN => true
  | .testEn => true
  | .strapCp => true
  | .strapAddr => true
  | .strapHpdef => true
  | _ => false

/-- The 484 ball numbers. -/
def balls : List Nat := List.range 484

/-- The ball is connected to a die on an assembly with (`iot`) or without an I/O tile and with (`clay`) or without clay tiles (02 R69
to R71). -/
def ballConnected (clay iot : Bool) (n : Nat) : Bool :=
  match ballAt n with
  | .vtile => clay || iot
  | .sig x => iot || !x.ofIot
  | _ => true

end Sys2Proof.Machine
end

