-- ==== Sys2Proof/Machine/Units.lean ====
section
/-! DEFINITION. The state of each unit of the block as plain data, with its value after power-on reset.
Counters that the manual gives a saturating or modulo width are numbers kept below that width by the operation
that counts; registers that software writes whole are words. A list that stands for a fixed number of like
things (channels, islands, engines) keeps its length; `State.wf` says so. -/

namespace Sys2Proof.Machine

open Sys2Proof

/-- `n` copies of a value. -/
abbrev many {α : Type} (n : Nat) (x : α) : List α := List.replicate n x

/-! ### Time stamps, faults, events -/

/-- A time stamp: device time and its quality code (05 R193, R197). -/
structure Stamp where
  dt : Nat
  qual : BitVec 2
  deriving DecidableEq, Repr

/-- A fault record's four words, taken apart (14 R587). -/
structure FltRec where
  job : BitVec 16
  code : Byte
  cas : Byte
  offset : Word
  isl : BitVec 6
  eng : BitVec 4
  att : BitVec 4
  jv : Bool
  qv : Bool
  qid : BitVec 14
  stamp : Stamp
  deriving DecidableEq, Repr

/-- The fault collector of PD0 (14 R588, R592). -/
structure Flt where
  recs : List FltRec
  total : Nat
  lost : Nat
  lcode : Byte
  deriving DecidableEq, Repr

def Flt.reset : Flt := ⟨[], 0, 0, 0⟩

/-- An event of Q16383 (11 R462, 12 R507, 13 R560). The layout of completion and MARK events is not in the manual,
so the model keeps their contents and no bytes (DESIGN CHOICE, log 79). -/
inductive Event where
  | mark (p0 p1 : Word) (job : BitVec 16) (dt : Word)
  | completion (e : Eng) (job : BitVec 16) (offset : Word)
  | saturation (counter : Nat) (e : Eng) (job : BitVec 16) (offset : Word) (dt : Word)
  deriving DecidableEq, Repr

/-! ### Fuses (16 R630 to R643) -/

/-- A key slot's fuses: the key bits, VALID and REVOKE (16 R641). -/
structure KeySlot where
  bits : BitVec 512
  valid : Bool
  revoked : Bool
  deriving DecidableEq, Repr

/-- A ROM patch record's fuses (16 R634). -/
structure PatchSlot where
  bits : BitVec 96
  valid : Bool
  deriving DecidableEq, Repr

/-- The fuse array: the part's variant (00 R9), life cycle, keys, anti-rollback bits and patch records. -/
structure Fuses where
  clay : Nat
  iot : Bool
  hgrade : Bool
  lcf : BitVec 3
  keykill : Bool
  sig : List KeySlot
  enc : List KeySlot
  rollback : BitVec 64
  patch : List PatchSlot
  deriving DecidableEq, Repr

def KeySlot.blank : KeySlot := ⟨0, false, false⟩

/-- A part as it leaves assembly: IRB4-21-T in BLANK, no key, no patch (log 10: DESIGN CHOICE; statements hold for
every fuse content). -/
def Fuses.blank : Fuses :=
  { clay := 2, iot := true, hgrade := false, lcf := 0, keykill := false, sig := many 4 .blank,
    enc := many 4 .blank, rollback := 0, patch := many 32 ⟨0, false⟩ }

/-! ### Power-on reset and straps (02 R76 to R91) -/

structure Boot where
  /-- Power-on reset is asserted (02 R80). -/
  por : Bool
  /-- Manufacturing test mode (02 R82). -/
  mfg : Bool
  strapCp : Bool
  strapAddr : Bool
  strapHpdef : Bool
  testEn : Bool
  /-- Strap and TEST_EN inputs and their pulls are enabled (02 R76). -/
  strapPulls : Bool
  probe : Probe
  /-- The life-cycle pattern in force: that of the last power-on reset or completed transition (16 R630, R654). -/
  lcNow : BitVec 3
  /-- `RST_CAUSE.LAST` and `WARM_CNT` (05 R208). -/
  cause : Byte
  warmCnt : Nat
  /-- RESET_N pulses of open width seen, the index of their free value (18 R709). -/
  pulses : Nat
  deriving DecidableEq, Repr

/-! ### Supply selector (03) -/

/-- An entry of `PMU_HANDOVER_LOG` (03 R115). -/
structure LogEntry where
  stamp : Stamp
  bounce : Nat
  opn : Bool
  code : BitVec 4
  aPres : Bool
  bPres : Bool
  sel : Bool
  deriving DecidableEq, Repr

def LogEntry.empty : LogEntry := ⟨⟨0, 0⟩, 0, false, 0, false, false, false⟩

structure Sel where
  aPres : Bool
  bPres : Bool
  aQual : Bool
  bQual : Bool
  /-- An input has been selected since power-on reset (03 R101). -/
  chosen : Bool
  /-- The selection: false VAON_A, true VAON_B. -/
  sel : Bool
  /-- The log entry whose hand-over window is open (03 R106); the departed input is the one not selected. -/
  win : Option Nat
  /-- A window of a failover in OFF, which has no log entry (03 R108). -/
  winOff : Bool
  /-- Start of the interval in which no input is present (03 R117, R118). -/
  gap : Option Stamp
  total : Nat
  count : Nat
  lost : Bool
  head : Nat
  log : List LogEntry
  deriving DecidableEq, Repr

/-! ### Power sequencer (04) -/

/-- Power states, in the order of `PWR_CMD.STATE` (04 R165). -/
inductive PState where | run | idle | watch | hibernate | off
  deriving DecidableEq, Repr

/-- Domain levels (04 R122). -/
inductive PdLevel where | on | gated | ret | off
  deriving DecidableEq, Repr

/-- Why an entry is given up. -/
inductive Cut where
  | none
  | wake
  | refuse (code : Byte)
  deriving DecidableEq, Repr

/-- What the sequencer is doing (04 R128, R141, R145, R147, R179). Steps and abort points are numbered 1 to 6,
checkpoints 0 (none) to 5. `resume` is the checkpoint at which an entry left an exit (R147); `first` the first step a
reversal undoes last; `next` the redirection of R147 and its `QWAIT`; `res` the result with which an exit ends. -/
inductive Seq where
  | stable
  | entry (step : Nat) (qw : BitVec 4) (cut : Cut) (resume : Option Nat)
  | reverse (ap first : Nat) (cut : Cut) (resume : Option Nat)
  | exit (cp : Nat) (next : Option (PState × BitVec 4)) (res : Nat)
  | warm (cp : Nat)
  deriving DecidableEq, Repr

/-- A PMIC script under way: its slot, the next entry, and whether that entry was NACKed once (04 R162). -/
structure Script where
  slot : Nat
  idx : Nat
  retried : Bool
  deriving DecidableEq, Repr

/-- The stage of an operating-point change (04 R150). -/
inductive OpStage where
  | none
  | script
  | relock
  deriving DecidableEq, Repr

structure Pwr where
  /-- The stable state, or the state that the transition under way started from. -/
  st : PState
  /-- `PWR_STATUS.TARGET`: the state being entered or exited to. -/
  tgt : PState
  seq : Seq
  pd : List PdLevel
  result : Nat
  pmicFault : Bool
  opCur : Nat
  opTgt : Nat
  opStage : OpStage
  /-- The point an operating-point change under way moves to. -/
  opGoal : Nat
  wakeEn : BitVec 6
  wakeSrc : BitVec 6
  refuseCnt : Nat
  abortCnt : Nat
  refCode : Byte
  refReq : Nat
  refOp : Bool
  /-- `PAD_RELEASE`: latched pad groups (04 R157). -/
  pads : BitVec 8
  sedret : Bool
  script : Option Script
  /-- A script of this sequence has begun (04 R145, AP5 row). -/
  scriptRan : Bool
  pwrReq : Bool
  pwrGood : Bool
  /-- The sequencer waits for PWR_GOOD (04 R161). -/
  awaitPg : Bool
  /-- PWR_GOOD is ignored until the next wait (04 R161). -/
  pgIgnored : Bool
  /-- E4 of the entry under way stopped XT24 and the PLLs (04 R145). -/
  e4Stopped : Bool
  /-- An enabled wake source has fired after AP5, or during a reversal (04 R138, R166). -/
  woken : Bool
  /-- X2 is to be repeated (04 R166, I21 reset between C2 and C5). -/
  repeatX2 : Bool
  /-- A PMIC fault is among the causes of the warm reset under way (05 R716). -/
  warmPmic : Bool
  /-- A word of supervisor RAM holds an uncorrectable error (05 R176, RET_ECC). -/
  supEcc : Bool
  admission : Bool
  supRdy : Bool
  /-- Supervisor state is saved in PD6 (04 R128 E3). -/
  supSaved : Bool
  /-- The exit under way is the power-up that follows power-on reset (04 R717). -/
  porUp : Bool
  /-- A `PWR_CMD` accepted during an operating-point change (04 R166). -/
  deferred : Option (PState × BitVec 4)
  cfg : Word
  scripts : List Word
  deriving DecidableEq, Repr

/-! ### Clocks and time (05) -/

structure Clk where
  slowLrc : Bool
  xt32Absent : Bool
  xt32Fail : Bool
  xt24Fail : Bool
  xt24Run : Bool
  pllFio : Bool
  hrcFail : Bool
  fioRun : Bool
  relock0 : Bool
  relock1 : Bool
  /-- A first loss of lock of PLL0, of PLL1, has been detected (05 R171). -/
  lost0 : Bool
  lost1 : Bool
  /-- The measured LRC tick length in units of 2^-16 (05 R193). -/
  meas : Option Nat
  /-- The islands in an island reset, oldest first (`ISL_RST.BUSY`), and the REFUSED flag (05 R208). -/
  islBusy : List Nat
  islRefused : Bool
  deriving DecidableEq, Repr

/-- Fractions carried by a count of slow ticks (05 R193): `m` in 2^-17 of a unit for a measured length,
`n` in thousandths for the length 32.768. -/
structure Frac where
  m : Nat
  n : Nat
  deriving DecidableEq, Repr

/-- A slew in progress: the true time at the last slow edge, with its own fractions (05 R204). -/
structure Slew where
  true_ : Int
  frac : Frac
  deriving DecidableEq, Repr

structure Tim where
  /-- DT of the last slow edge. -/
  dt : Nat
  frac : Frac
  /-- The error bound in units of 1 / (131,072,000 x 10^6) of a DT unit; at the top it is unknown (05 R200). -/
  err : Nat
  /-- Growth of the bound in HIBERNATE, applied at X2 (05 R201). -/
  errHib : Nat
  /-- Time counted on fast clocks since the last edge, in cycles of 96 MHz (a cycle of XT24 is four), and whether a fast clock has
  run since it (05 R194, R197). -/
  fastN : Nat
  fastRan : Bool
  /-- The device time that the last counted instant reached: DT never decreases (05 R195). -/
  reached : Nat
  /-- Index of the next free value of `Config.fastCycles`. -/
  stampK : Nat
  uncertain : Bool
  /-- The next stamp is the first after an exit from HIBERNATE. -/
  bridged : Bool
  slew : Option Slew
  /-- The 40-bit slow-tick counter of I0, and the snapshot of R198. -/
  ticks : Nat
  snapDt : Nat
  snapTicks : Nat
  setLo : Word
  setHi : Word
  setErr : Word
  alarmLo : Word
  alarmHi : Word
  alarmEn : Bool
  fired : Bool
  cfg : Word
  /-- DT and quality latched by a read of `TIM_NOW_LO` (05 R209). -/
  latDt : Nat
  latQual : BitVec 2
  deriving DecidableEq, Repr

/-! ### Islands (01) -/

structure Isl where
  epoch : BitVec 4
  stale : Nat
  resets : Nat
  /-- Held in reset by an island reset, a warm reset or a transition. -/
  held : Bool
  deriving DecidableEq, Repr

/-- A request accepted and not yet answered: issuer, target, transaction number, ledger entry of its job. -/
structure Txn where
  src : Nat
  dst : Nat
  txn : BitVec 4
  entry : Option Nat
  deriving DecidableEq, Repr

/-! ### Control port, window, doorbells (06) -/

/-- A response as sent: status byte, data word, CRC byte (06 R215, R219). -/
structure Resp where
  status : Byte
  data : Word
  crc : Byte
  deriving DecidableEq, Repr

structure Cp where
  wIdx : Byte
  wRes : BitVec 3
  wSeq : BitVec 4
  errCmd : Nat
  errTrunc : Nat
  errCrc : Nat
  scratch : Word
  /-- `CP_LOOP`: what a read returns, the complement of the last value written. -/
  loop : Word
  disc : Bool
  intStatus : BitVec 13
  intEn : BitVec 13
  resp : Option Resp
  deriving DecidableEq, Repr

/-- A posted window write: address, data, its frame's `SEQ`; it was made after AP1 to a region the target removes
(01 R63); its target island was reset (01 R61). -/
structure PWrite where
  addr : Word
  data : Word
  seq : BitVec 4
  late : Bool
  peerReset : Bool
  deriving DecidableEq, Repr

structure Win where
  addr : Word
  inc : Bool
  last : Word
  laddr : Word
  wstat : BitVec 3
  rstat : BitVec 3
  pbusy : Bool
  pdata : Word
  plate : Bool
  ppeer : Bool
  posted : List PWrite
  deriving DecidableEq, Repr

structure Db where
  /-- Held doorbells, oldest first: QID and COUNT. -/
  fifo : List (BitVec 14 × Nat)
  rejCnt : Nat
  last : BitVec 3
  qid : BitVec 14
  deriving DecidableEq, Repr

/-! ### Slip ports (07) -/

inductive LinkState where | disabled | clock | align | config | credit | up
  deriving DecidableEq, Repr

/-- A frame in the replay buffer: its bits, the items it carries (queue and count), and whether its cost has been
taken since the last training (07 R284). -/
structure TxFrame where
  frame : SlipFrame
  items : Nat
  charged : Bool
  deriving DecidableEq, Repr

/-- What a commit left in an egress queue (07 R301, R304): `left` items of the job that are not sent yet, and the `FAILED` bit of the
COMMIT_MARK that follows them, if one does. -/
structure Run where
  job : BitVec 16
  left : Nat
  mark : Option Bool
  deriving DecidableEq, Repr

structure Slip where
  ctrl : Word
  state : LinkState
  fail : Nat
  down : Bool
  nextRx : BitVec 16
  txSeq : BitVec 16
  fresh : Bool
  replay : List TxFrame
  /-- Frames of `replay` to send again before any new frame (07 R293). -/
  resend : Nat
  rxbad : Nat
  replays : Nat
  rej : Nat
  downs : Nat
  /-- Peer's CUM and this side's SENT for VC0 to VC2; VC credits seen in the CREDIT state. -/
  peerCum : List Nat
  sent : List Nat
  gotCredit : List Bool
  /-- Own CUM for VC0 to VC3 and the value last advertised. -/
  cum : List Nat
  advert : List Nat
  /-- Units occupied in the receive buffers of VC0 and VC1 (07 R283). -/
  used : List Nat
  /-- ITEM frames accepted and waiting at the head of VC1 (07 R300). -/
  rxBuf : List SlipFrame
  tsRun : Nat
  tsAckedRx : Nat
  tsAckedTx : Nat
  acked : Bool
  /-- What was wrong with the last bad TS set of this CONFIG state, as a `FAIL` code; 0: none was bad (07 R278). -/
  tsCause : Nat
  /-- A good TS set has been received in this CONFIG state; the peer's `NEXT_RX` that it brought (07 R281). -/
  tsSeen : Bool
  peerNext : BitVec 16
  nakHold : Bool
  fruitless : Nat
  lastRej : BitVec 80
  bind : List Word
  /-- Frames for VC0 waiting to be sent: PONGs and ECHOs. -/
  vc0 : List SlipFrame
  /-- The last frame sent went on VC2; the queue served last of each VC and rank, rank fastest (07 R305). -/
  lastVc2 : Bool
  lastQueue : List Nat
  /-- Columns sent, newest first: ACK, NAK and CREDIT (07 R266). -/
  lastAck : Option (BitVec 16)
  lastNak : Option (BitVec 16)
  deriving DecidableEq, Repr

def Slip.reset : Slip :=
  { ctrl := 0, state := .disabled, fail := 0, down := false, nextRx := 0, txSeq := 0, fresh := true, replay := [],
    resend := 0, rxbad := 0, replays := 0, rej := 0, downs := 0, peerCum := many 3 0, sent := many 3 0,
    gotCredit := many 4 false, cum := [16, 192, 0, 0], advert := [16, 192, 0, 0], used := many 2 0, rxBuf := [],
    tsRun := 0, tsAckedRx := 0, tsAckedTx := 0, acked := false, tsCause := 0, tsSeen := false, peerNext := 0, nakHold := false, fruitless := 0, lastRej := 0,
    bind := many 128 0, vc0 := [], lastVc2 := false, lastQueue := many 8 0, lastAck := none, lastNak := none }

/-! ### Sensor front end (08) -/

/-- Where a channel's slot stands (08 R332 to R334). -/
inductive SlotSt where | idle | waiting | transfer
  deriving DecidableEq, Repr

/-- What a controller of the sensor front end does on its bus (08 R339, R343, R351). -/
inductive BusOp where
  /-- START or repeated START, the 7-bit address and the direction. -/
  | start (addr : Nat) (read : Bool)
  | write (b : Byte)
  /-- The controller reads so many bytes. -/
  | read (n : Nat)
  /-- The byte that ENTDAA gives the target as its dynamic address. -/
  | assign (b : Byte)
  | stop
  /-- The recovery of R343: nine SCL pulses and a STOP. -/
  | recover
  /-- SPI: CS falls; `none` where the manual does not say which CS (a manual transfer, log 98). -/
  | select (cs : Option Nat)
  | release
  /-- The ADC: so many conversions of an AIN. -/
  | convert (ain n : Nat)
  deriving DecidableEq, Repr

structure Chan where
  ctrl : Word
  per : Word
  phase : Word
  xfer : Word
  extract : Word
  check : Word
  /-- `CH_RANGE`, `CH_RATE` as written, and as in force since the last slot start (08 R337). -/
  range : Word
  rate : Word
  rangeNow : Word
  rateNow : Word
  value : BitVec 16
  verdict : BitVec 2
  stamp : Stamp
  sseq : Nat
  faults : Nat
  misses : Nat
  missRun : Nat
  clipRun : Nat
  prev : Option Int
  med : List Int
  iir : Option Int
  slot : SlotSt
  /-- Schedule-clock value of the slot's start, and the stamp of the sampling instant. -/
  slotU : Nat
  slotStamp : Stamp
  /-- PDM window: sum of magnitudes, number of PCM samples, whether the line changed (08 R342). -/
  pdmSum : Nat
  pdmNum : Nat
  pdmChg : Bool
  /-- The count at the previous slot, for DELTA mode (08 R342). -/
  base : Int
  /-- A counter's or a PDM input's raw value, taken at the slot start (08 R342, R349); `none`: FAULT. -/
  slotRaw : Option (BitVec 16)
  /-- What the channel's last transfer does on its bus (08 R339). -/
  sent : List BusOp
  /-- VALID and CLIPPED values since the enable, newest first, at most 64, and the first one (10 R390). -/
  hist : List (BitVec 16)
  first : Option (BitVec 16)
  deriving DecidableEq, Repr

def Chan.reset : Chan :=
  { ctrl := 0x03008000, per := 0x3E8, phase := 0, xfer := 0x01000002, extract := 0x00000F00, check := 0,
    range := 0x7FFF8000, rate := 0, rangeNow := 0x7FFF8000, rateNow := 0, value := 0, verdict := 0b10,
    stamp := ⟨0, 0b11⟩, sseq := 0, faults := 0, misses := 0, missRun := 0, clipRun := 0, prev := none, med := [],
    iir := none, slot := .idle, slotU := 0, slotStamp := ⟨0, 0b11⟩, pdmSum := 0, pdmNum := 0, pdmChg := false, base := 0, slotRaw := none,
    sent := [], hist := [], first := none }

/-- A counter input: its count, the levels last seen, a mark of an illegal transition (08 R324). -/
structure Cnt where
  count : Int
  a : Bool
  b : Bool
  illegal : Bool
  deriving DecidableEq, Repr

/-- The registers of a manual-transfer unit (08 R353, 17 R683). -/
structure Xfer where
  ctrl : Word
  data0 : Word
  data1 : Word
  /-- Consecutive transfers that ended with SDA low, per I3C controller of the unit (08 R343). -/
  sda : List Nat
  /-- What the last manual transfer does on its bus (08 R351). -/
  sent : List BusOp
  deriving DecidableEq, Repr

/-- A unit with n I3C controllers. -/
def Xfer.reset (n : Nat) : Xfer := ⟨0, 0, 0, many n 0, []⟩

structure Sns where
  chg : Word
  muxerr : Bool
  sb1v : Bool
  sb1det : BitVec 2
  /-- The level of VIO_SB1, in microvolts (08 R328). -/
  sb1uv : Nat
  buscfg : Word
  spcfg : List Word
  xfer : Xfer
  chans : List Chan
  cnts : List Cnt
  /-- Verdict updates on their way to Hardpan (08 R319), oldest first: channel, verdict, value. -/
  toHp : List (Nat × BitVec 2 × BitVec 16)
  deriving DecidableEq, Repr

def Sns.reset : Sns :=
  { chg := 0, muxerr := false, sb1v := false, sb1det := 0, sb1uv := 0, buscfg := 0x00000049,
    spcfg := many 24 0, xfer := .reset 3, chans := many 16 .reset, cnts := many 4 ⟨0, false, false, false⟩, toHp := [] }

/-! ### Hardpan (09) -/

structure Hp where
  rules : List Word
  shadow : List Word
  /-- An uncorrectable ECC error stands in rule memory (09 R375). -/
  memBad : Bool
  c : List Nat
  /-- The rule stands tripped by FAULT, STALE or silence (09 R361). -/
  standing : List Bool
  /-- Groups that are tripped. -/
  grp : List Bool
  armed : Bool
  released : Bool
  hold : Bool
  tst : Nat
  sceTo : Nat
  runst : Bool
  inc : Bool
  idx : Nat
  kcause : Nat
  kerr : Bool
  lockerr : Bool
  warn : Bool
  first : Nat
  /-- The next trip records FIRST (09 R362). -/
  ackd : Bool
  /-- The first arming key has been written (09 R364). -/
  armSeq : Bool
  /-- A running self-test decides an arming (09 R365). -/
  arming : Bool
  stRun : Bool
  stRan : Bool
  passes : Nat
  fails : Nat
  stfail : Bool
  cause : Nat
  stLast : Bool
  /-- The levels that the balls keep during a mismatch. -/
  fbA : Bool
  fbB : Bool
  /-- A feedback mismatch is in progress on HP_FB_A, on HP_FB_B. -/
  misA : Bool
  misB : Bool
  mismatch : Nat
  /-- SCE silence has been declared (09 R360). -/
  silent : Bool
  /-- Confidences of the last SCE result delivered to I2. -/
  conf : List Nat
  /-- An SCE result is on its way to I2. -/
  sceIn : Bool
  deriving DecidableEq, Repr

def Hp.reset : Hp :=
  { rules := many 64 0, shadow := many 64 0xFFFFFFFF, memBad := false, c := many 32 0, standing := many 32 false,
    grp := many 32 false, armed := false, released := false, hold := false, tst := 0x0A, sceTo := 0x64,
    runst := false, inc := true, idx := 0, kcause := 0, kerr := false, lockerr := false, warn := false, first := 0,
    ackd := true, armSeq := false, arming := false, stRun := false, stRan := false, passes := 0, fails := 0,
    stfail := false, cause := 0, stLast := false, fbA := false, fbB := true, misA := false, misB := false,
    mismatch := 0, silent := false, conf := many 64 0, sceIn := false }

/-! ### Silt classifier engine and sediment (10) -/

structure Sce where
  run : Bool
  runerr : Bool
  fault : Bool
  minconf : Nat
  ldb : Nat
  per : Word
  inp : Word
  wake0 : Word
  wake1 : Word
  loaded : Bool
  model : Nat
  slot : Bool
  tinf : Nat
  /-- Address of the installed lane's first command, and its number of commands. -/
  cbase : Nat
  ncmd : Nat
  results : Nat
  skips : Nat
  overruns : Nat
  mark0 : Word
  mark1 : Word
  mark2 : Word
  marks : Word
  /-- An inference is running, the stamp of its start. -/
  busy : Bool
  start : Stamp
  label : Byte
  top : Byte
  conf : Byte
  rseq : Nat
  wclass : Byte
  /-- `SILT_EVT` flags OVR, SKIP, FLT, CHG, WAKE in bits 4 to 0. -/
  evt : BitVec 5
  /-- The top label of the latest results and how many in a row (10 R398). -/
  cand : Byte
  candRun : Nat
  pcmPos : Nat
  /-- `SCE_IN.AUD` as in force since the last inference start (10 R412). -/
  aud : Nat
  deriving DecidableEq, Repr

def Sce.reset : Sce :=
  { run := false, runerr := false, fault := false, minconf := 0x80, ldb := 1, per := 0x9C40, inp := 6, wake0 := 0,
    wake1 := 0, loaded := false, model := 0, slot := false, tinf := 0, cbase := 0, ncmd := 0, results := 0, skips := 0,
    overruns := 0, mark0 := 0, mark1 := 0, mark2 := 0, marks := 0, busy := false, start := ⟨0, 0b11⟩,
    label := 0xFF, top := 0xFF, conf := 0, rseq := 0, wclass := 0xFF, evt := 0, cand := 0xFF, candRun := 0,
    pcmPos := 0, aud := 0 }

/-- An open sediment entry (10 R403). -/
structure OpenEntry where
  start : Nat
  n : Nat
  qual : BitVec 2
  incomplete : Bool
  cnt : List Nat
  deriving DecidableEq, Repr

def OpenEntry.empty (start : Nat) : OpenEntry := ⟨start, 0, 0, false, many 64 0⟩

structure Sed where
  /-- The open entries of S1, S2 and S3. -/
  opens : List OpenEntry
  /-- Entries written in each stratum since its wipe. -/
  written : List Nat
  /-- `DT_START` of the last written entry of each stratum; none before the first, and after open entries were
  discarded (10 R413). -/
  lastStart : List (Option Nat)
  qaddr : Word
  /-- The written-entry number selected by the last `SED_QADDR` write, or that the selected open entry took when it closed;
  none while the open entry is selected, or when `selBad` says that no entry is. -/
  sel : Option Nat
  selBad : Bool
  pbusy : Bool
  pdata : Word
  pstat : BitVec 3
  /-- I54 was reset with a prefetch pending (10 R413); the prefetch was started after AP1 of an entry (01 R45). -/
  ppeer : Bool
  plate : Bool
  deriving DecidableEq, Repr

def Sed.reset : Sed :=
  { opens := many 3 (.empty 0), written := many 3 0, lastStart := many 3 none, qaddr := 0, sel := none,
    selBad := true, pbusy := false, pdata := 0, pstat := 0b001, ppeer := false, plate := false }

/-! ### Queues and sync counters (11) -/

/-- A queue descriptor (11 R414). -/
structure QDesc where
  base : Nat
  ldepth : Nat
  isize : Nat
  cls : Nat
  scope : Nat
  ovf : Bool
  rank : Nat
  cth : Nat
  rbw : Nat
  tlink : Nat
  wp : Nat
  pp : Nat
  rp : Nat
  fp : Nat
  deriving DecidableEq, Repr

def QDesc.unused : QDesc := ⟨0, 0, 0, 0, 0, false, 0, 0, 0, 0, 0, 0, 0, 0⟩

structure Qm where
  /-- The descriptors that are not unused, by queue number. -/
  qdt : List (Nat × QDesc)
  /-- Open streams. -/
  streams : List Nat
  resResult : BitVec 3
  resQid : BitVec 14
  sstall : Nat
  sstallValid : Bool
  sstallQid : BitVec 14
  /-- Sinks whose present stall has been reported (11 R470). -/
  reported : List Nat
  dropCnt : Nat
  dropLast : BitVec 14
  /-- Q16383: its items, and the events waiting for space with their kind (true: ordinary). -/
  evq : List Event
  evPend : List (Bool × Event)
  evK : Nat
  /-- For each egress queue the runs of its published, unsent items and COMMIT_MARKs, oldest first (07 R301, R304). -/
  runs : List (Nat × List Run)
  /-- A queue pointer checkpoint taken at E2 (04 R128). -/
  checkpoint : Bool
  deriving DecidableEq, Repr

def Qm.reset : Qm :=
  { qdt := [], streams := [], resResult := 0, resQid := 0, sstall := 0x0A, sstallValid := false, sstallQid := 0,
    reported := [], dropCnt := 0, dropLast := 0, evq := [], evPend := [], evK := 0, runs := [], checkpoint := false }

/-- A sync counter: configuration and value (11 R439). -/
structure Sc where
  valid : Bool
  job : Bool
  tmo : Nat
  val : Word
  deriving DecidableEq, Repr

def Sc.unused : Sc := ⟨false, false, 0, 0⟩

/-! ### Engines and lanes (12) -/

/-- The roles of a command's operands (12 R492, R494). -/
inductive Role where | a | b | o | qp | table | bias | zb | sca | s2a | scb | s2b | esc
  deriving DecidableEq, Repr

/-- Where a lane's present command stands. `stallOut` keeps the request for output space, items by queue (11 R434); a lane whose job
has faulted stands in `abandon` until its engine has given the command up (12 R485). -/
inductive Stage where
  | ready
  | stallIn (q : BitVec 14)
  | stallOut (req : List (Nat × Nat))
  | waitSc (n : Nat) (t : Word)
  | waitTile (q : BitVec 14) (items tmo : Nat)
  | fenced
  | executed
  | abandon
  deriving DecidableEq, Repr

/-- A lane on an engine: ledger entry, lane index, TSR address of its first command, byte offset of its present
command, its number of commands, coverage of decoupling queues (12 R510), space it holds reserved (11 R434), the bytes that its
present command has read so far from queues, by operand (11 R433), and its writes to memory that no FENCE or SSIG has made visible to
other lanes yet, oldest first: address and bytes (12 R479). -/
structure Lane where
  entry : Nat
  index : Nat
  base : Nat
  off : Nat
  ncmd : Nat
  stage : Stage
  cov : List (Nat × Nat)
  resv : List (Nat × Nat)
  ins : List (Role × List Byte)
  wbuf : List (Nat × List Byte)
  /-- The ADAPT record that takes effect when the present command completes: offset in the scale cache and bytes (13 R553). -/
  adapt : Option (Nat × List Byte)
  deriving DecidableEq, Repr

structure EngSt where
  cur : Option Lane
  /-- Lanes dispatched and not begun, in dispatch order. -/
  wait : List Lane
  opc : Byte
  job : BitVec 16
  pc : Word
  cmds : Word
  faults : Nat
  deriving DecidableEq, Repr

def EngSt.reset : EngSt := ⟨none, [], 0, 0, 0, 0, 0⟩

/-- A saturation counter's registers (13 R562). -/
structure Sat where
  cfg : Word
  thr : Word
  cnt : Word
  deriving DecidableEq, Repr

/-! ### Jobs and ledger (14) -/

inductive JState where | free | admitted | running | restarting | done | failing | rejected
  deriving DecidableEq, Repr

/-- A bound port of a job (14 R564). -/
structure PortBind where
  valid : Bool
  nrel : Nat
  qid : Nat
  deriving DecidableEq, Repr

structure Entry where
  st : JState
  model : Nat
  slotB : Bool
  restarts : Nat
  job : BitVec 16
  seq : Word
  tagLo : Word
  tagHi : Word
  budget : Nat
  rank : Nat
  notify : Bool
  ports : List PortBind
  /-- The lanes that have ended, by index. -/
  doneLanes : List Nat
  /-- Deferred additions to PLAIN counters (11 R440). -/
  defer : List (Nat × Nat)
  /-- The job owns every object it uses (11 R425). -/
  started : Bool
  /-- The attempt's first fault never restarts (14 R577). -/
  fatal : Bool
  deriving DecidableEq, Repr

def Entry.free : Entry :=
  { st := .free, model := 0, slotB := false, restarts := 0, job := 0, seq := 0, tagLo := 0, tagHi := 0, budget := 0,
    rank := 0, notify := false, ports := [], doneLanes := [], defer := [], started := false, fatal := false }

structure Ldg where
  entries : List Entry
  head : Nat
  used : Nat
  seqNext : Word
  lastRestarts : Nat
  lastStatus : Nat
  lastJob : BitVec 16
  commits : Word
  rejects : Nat
  fails : Nat
  /-- Doorbells that took effect and whose descriptors are being admitted: queue, descriptors left (14 R567). -/
  service : List (Nat × Nat)
  deriving DecidableEq, Repr

def Ldg.reset : Ldg :=
  { entries := many 256 .free, head := 0, used := 0, seqNext := 0, lastRestarts := 0, lastStatus := 0, lastJob := 0,
    commits := 0, rejects := 0, fails := 0, service := [] }

/-! ### Loader and models (15) -/

inductive SlotState where | empty | loading | ready
  deriving DecidableEq, Repr

/-- A lane of an installed image, after folding: engine, offset in .cmd, commands (15 R603, R614). -/
structure ImgLane where
  eng : Eng
  off : Nat
  ncmd : Nat
  deriving DecidableEq, Repr

/-- An installed image's objects and regions; a region is its first address and size, the local-store slice its offset in
each store and the bytes of one slice. -/
structure Img where
  lanes : List ImgLane
  queues : List (Nat × QDesc)
  counters : List (Nat × Sc)
  ports : List (List Nat)
  /-- Queues that its lanes write and read (16,368 + p stands for port p), and counters they use. -/
  produces : List Nat
  consumes : List Nat
  sems : List Nat
  /-- The queues and counters that it declares with EXT = 1 (15 R610), its virtual engines, and its part of the queue
  graph: edges, queues read, queues named (11 R466). -/
  extQ : List Nat
  extC : List Nat
  vte : Nat
  edges : List (Nat × Nat)
  reads : List Nat
  nodes : List Nat
  tsr : Nat × Nat
  ls : Nat × Nat
  clay0 : Nat × Nat
  clay1 : Nat × Nat
  scc : Nat × Nat
  deriving DecidableEq, Repr

def Img.empty : Img := ⟨[], [], [], [], [], [], [], [], [], 0, [], [], [], (0, 0), (0, 0), (0, 0), (0, 0), (0, 0)⟩

structure Slot where
  st : SlotState
  arb : Nat
  adv : Bool
  build : BitVec 64
  img : Img
  deriving DecidableEq, Repr

def Slot.empty : Slot := ⟨.empty, 0, false, 0, .empty⟩

/-- A failed check of an install: code, case, capsule offset, queue (15 R616). -/
structure LoadFault where
  code : Byte
  cas : Byte
  offset : Nat
  qid : Option Nat
  /-- The island of the record: 58 for a fault at L3 or L4, else 21. -/
  isl : Nat := 21
  deriving DecidableEq, Repr

/-- An install under way: model, slot, what pass 1 and the checks found, and the staged capsule's digest at pass 1. -/
structure Inst where
  model : Nat
  slotB : Bool
  fault : Option LoadFault
  digest : BitVec 256
  img : Img
  silt : Bool
  deriving DecidableEq, Repr

structure Cap where
  addr : Word
  len : Word
  plTsr : Word
  plLs : Word
  plClay0 : Word
  plClay1 : Word
  plIds : Word
  plScc : Word
  done : Word
  inst : Option Inst
  iphase : Nat
  iresult : Nat
  icode : Byte
  icase : Byte
  /-- A swap under way: model, slot, fuse bits to blow up to. -/
  swap : Option (Nat × Bool)
  sresult : Nat
  scase : Nat
  msel : Nat
  /-- Slots A and B of the 32 models: slot 2m is A, 2m + 1 is B. -/
  slots : List Slot
  /-- The active slot of each model: false A, true B. -/
  active : List (Option Bool)
  deriving DecidableEq, Repr

def Cap.reset : Cap :=
  { addr := 0, len := 0, plTsr := 0, plLs := 0, plClay0 := 0, plClay1 := 0, plIds := 0, plScc := 0, done := 0,
    inst := none, iphase := 0, iresult := 0, icode := 0, icase := 0, swap := none, sresult := 0, scase := 0,
    msel := 0, slots := many 64 .empty, active := many 32 none }

/-! ### Life cycle and debug (16) -/

/-- An `LC_CMD` operation under way. -/
inductive LcOp where
  | none
  /-- T1 and T2: the target state, memories still to be wiped. -/
  | wiping (tgt : BitVec 2) (failed : Bool)
  /-- T3. -/
  | blowing (tgt : BitVec 2)
  /-- T4. -/
  | warm (ok : Bool)
  | keyprog (ktype : Bool) (index : Nat) (good : Bool) (key : BitVec 512)
  deriving DecidableEq, Repr

structure Lc where
  op : LcOp
  result : Nat
  cas : Nat
  /-- Bits 15 to 0 of the first write of a two-write sequence (16 R635). -/
  first : Option (BitVec 16)
  ksrc : Word
  dbgEn : Bool
  dbgExtest : Bool
  dbgDeny : Nat
  deriving DecidableEq, Repr

/-- The test access port (16 R650 to R653, R634). -/
structure Jtag where
  ir : BitVec 4
  /-- DBG_TRST_N is low: the port is held in reset (02 R76). -/
  trst : Bool
  /-- The data register last captured. -/
  dr : BitVec 106
  /-- A DBGACC access under way: write, address, data; its island was reset. -/
  acc : Option (Bool × Word × Word)
  accData : Word
  accStat : BitVec 3
  /-- A PATCHPROG program operation under way: slot and record. -/
  patch : Option (Nat × BitVec 96)
  patchData : BitVec 96
  patchStat : BitVec 3
  /-- Boundary-scan cells preloaded, and those driven by EXTEST: ball number and level. -/
  preload : List (Nat × Bool)
  driven : List (Nat × Bool)
  scanK : Nat
  deriving DecidableEq, Repr

def Jtag.reset : Jtag :=
  { ir := 2, trst := true, dr := 0, acc := none, accData := 0, accStat := 0, patch := none, patchData := 0,
    patchStat := 0, preload := [], driven := [], scanK := 0 }

/-! ### Tiles and CSI-2 (17) -/

inductive TLink where | training | up | retrain
  deriving DecidableEq, Repr

structure TileSt where
  failed : Bool
  link : TLink
  replays : Nat
  count : Nat
  defer : Bool
  req : Bool
  /-- The retrain under way is a RECOVERY one. -/
  recovery : Bool
  deriving DecidableEq, Repr

def TileSt.reset : TileSt := ⟨false, .training, 0, 0, false, false, false⟩

/-- A frame a CSI-2 filter has reserved: number, stamp, lines so far, whether it has failed, its bytes. -/
structure CsiFrame where
  fnum : BitVec 16
  stamp : Stamp
  lines : Nat
  bad : Bool
  bytes : List Byte
  items : Nat
  deriving DecidableEq, Repr

structure CsiSt where
  ctrl : Word
  hdrerr : Nat
  crcerr : Nat
  nospace : Nat
  badfrm : Nat
  fstamp : Word
  fnum : BitVec 16
  qual : BitVec 2
  filt : Nat
  fseq : Nat
  f0 : List Word
  f1 : List Word
  open_ : List (Option CsiFrame)
  ulps : Bool
  deriving DecidableEq, Repr

def CsiSt.reset : CsiSt :=
  { ctrl := 0, hdrerr := 0, crcerr := 0, nospace := 0, badfrm := 0, fstamp := 0, fnum := 0, qual := 0b11, filt := 0,
    fseq := 0, f0 := many 4 0, f1 := many 4 0, open_ := many 4 none, ulps := false }

end Sys2Proof.Machine
end

