-- ==== Sys2Proof/Machine/State.lean ====
section
/-! DEFINITION. The whole state of the block, its value right after power-on reset is released, and the reasons a step can stop. -/

namespace Sys2Proof.Machine

open Sys2Proof

/-- Why a command stops the run with a fault. -/
inductive Fault where
  /-- Raised by the meanings of commands whose operands `Instr.wf` refuses: no event of the device carries them.
  Safe: such a command never arrives. -/
  | illFormed
  deriving DecidableEq, Repr

/-- Why the model has no meaning for a command. -/
inductive Refusal where
  /-- Raised by the arms of `exec` that have no meaning yet. Safe: the run stops. -/
  | notModelled (mnemonic : String)
  deriving DecidableEq, Repr

/-- The block. Registers, memories, queues, engines, sequencers, and the commands that wait (`pending`, first in,
first out). -/
structure State where
  fuses : Fuses
  boot : Boot
  sel : Sel
  pwr : Pwr
  clk : Clk
  tim : Tim
  isl : List Isl
  outstanding : List Txn
  flt : Flt
  cp : Cp
  win : Win
  db : Db
  slip0 : Slip
  slip1 : Slip
  sns : Sns
  /-- I3C3 and I3C4 of the I/O tile, and `IOT_I3C_CFG` (17 R683). -/
  iotXfer : Xfer
  iotCfg : Word
  hp : Hp
  sce : Sce
  sed : Sed
  qm : Qm
  /-- The sync counters that are not unused, by number, and `SC_TMO_CNT` (11 R471). -/
  scs : List (Nat × Sc)
  scTmo : Nat
  /-- TE0 to TE3, SU, DM0, DM1, SCE in the order of `Eng`. -/
  engs : List EngSt
  sats : List Sat
  satHit : BitVec 64
  ldg : Ldg
  cap : Cap
  lc : Lc
  jtag : Jtag
  tiles : List TileSt
  csis : List CsiSt
  /-- On-die memory of the internal address map: an unlisted byte reads 0, no listed byte is 0. -/
  mem : List Host.Cell
  /-- Clay memory: an unlisted byte is undefined (05 R192), or 0 after a wipe. -/
  clay : List Host.Cell
  clayK : Nat
  /-- The memory of clay tile 0, of tile 1, has been wiped: its unlisted bytes read 0, and no listed byte of it is 0. -/
  clayZ0 : Bool
  clayZ1 : Bool
  /-- The scale cache, by byte offset (13): an unlisted byte reads 0. -/
  scc : List Host.Cell
  /-- Addresses of 32-bit words that hold an uncorrectable error (05 R711), and byte offsets of those of the scale cache. -/
  ecc : List Nat
  sccEcc : List Nat
  /-- Memories being wiped (05 R191). -/
  wiping : List WipeMem
  /-- Index of the next free value of `Config.zeroSign`. -/
  freeK : Nat
  pending : List Instr
  deriving DecidableEq, Repr

/-- Domain levels during the power-up after power-on reset: HIBERNATE with Hardpan not armed (04 R122, R717). -/
def resetLevels : List PdLevel := .on :: many 23 .off

def Boot.reset : Boot :=
  { por := false, mfg := false, strapCp := false, strapAddr := false, strapHpdef := false, testEn := false,
    strapPulls := true, probe := ⟨true, true, true, true⟩, lcNow := 0, cause := 0x01, warmCnt := 0,
    pulses := 0 }

/-- VAON_A was the first input present (DESIGN CHOICE, log 11); the COLD_START entry stands (03 R116). -/
def Sel.reset : Sel :=
  { aPres := true, bPres := false, aQual := false, bQual := false, chosen := true, sel := false, win := none,
    winOff := false, gap := none, total := 0, count := 1, lost := false, head := 1,
    log := ⟨⟨0, 0b11⟩, 0, false, 1, true, false, false⟩ :: many 7 .empty }

/-- `PWR_STATUS` as R717 lays down: an exit from HIBERNATE has begun, X1 waits for PWR_GOOD. -/
def Pwr.reset : Pwr :=
  { st := .hibernate, tgt := .run, seq := .exit 0 none 1, pd := resetLevels, result := 0, pmicFault := false, opCur := 0,
    opTgt := 0, opStage := .none, opGoal := 0, wakeEn := 0b011001, wakeSrc := 0, refuseCnt := 0, abortCnt := 0,
    refCode := 0, refReq := 0, refOp := false, pads := 0, sedret := false, script := none, scriptRan := false,
    pwrReq := true, pwrGood := false, awaitPg := true, pgIgnored := false, e4Stopped := false,
    woken := false, repeatX2 := false, warmPmic := false, supEcc := false, admission := false, supRdy := false, supSaved := false, porUp := true,
    deferred := none, cfg := 0xA, scripts := many 64 0 }

def Clk.reset : Clk :=
  { slowLrc := false, xt32Absent := false, xt32Fail := false, xt24Fail := false, xt24Run := false, pllFio := false,
    hrcFail := false, fioRun := false, relock0 := false, relock1 := false, lost0 := false, lost1 := false,
    meas := none, islBusy := [], islRefused := false }

/-- The scale of `Tim.err`: 131,072,000 sub-units to a DT unit, times 10^6 for parts per million. -/
def errScale : Nat := 131072000 * 1000000

/-- The bound at which `TIM_ERRBOUND` means unknown (05 R200). -/
def errTop : Nat := 0xFFFFFFFF * errScale

/-- 05 R203, R208. -/
def Tim.reset : Tim :=
  { dt := 0, frac := ⟨0, 0⟩, err := errTop, errHib := 0, fastN := 0, fastRan := false, reached := 0, stampK := 0,
    uncertain := true, bridged := false, slew := none, ticks := 0, snapDt := 0, snapTicks := 0, setLo := 0, setHi := 0,
    setErr := 0, alarmLo := 0, alarmHi := 0, alarmEn := false, fired := false, cfg := 0x00640064, latDt := 0,
    latQual := 0b11 }

def Isl.reset : Isl := ⟨0, 0, 0, false⟩

def Cp.reset : Cp :=
  { wIdx := 0, wRes := 0, wSeq := 0, errCmd := 0, errTrunc := 0, errCrc := 0, scratch := 0, loop := 0, disc := false,
    intStatus := 0, intEn := 0x000C, resp := none }

/-- The prefetch that every reset release starts is under way (06 R244). -/
def Win.reset : Win :=
  { addr := 0, inc := true, last := 0, laddr := 0, wstat := 0, rstat := 0, pbusy := true, pdata := 0, plate := false,
    ppeer := false, posted := [] }

def Db.reset : Db := ⟨[], 0, 0, 0⟩

def Lc.reset : Lc :=
  { op := .none, result := 0, cas := 0, first := none, ksrc := 0, dbgEn := true, dbgExtest := false, dbgDeny := 0 }

/-- The block right after power-on reset is released on a blank IRB4-21-T: the registers hold the values of the
Reset columns, the power-up exit has begun (04 R717), nothing is stored and no command waits (DESIGN CHOICE, log 1). -/
def State.reset : State :=
  { fuses := .blank, boot := .reset, sel := .reset, pwr := .reset, clk := .reset, tim := .reset,
    isl := many 64 .reset, outstanding := [], flt := .reset, cp := .reset, win := .reset, db := .reset,
    slip0 := .reset, slip1 := .reset, sns := .reset, iotXfer := .reset 2, iotCfg := 0x9, hp := .reset, sce := .reset,
    sed := .reset, qm := .reset, scs := [], scTmo := 0, engs := many 8 .reset, sats := many 64 ⟨0, 0, 0⟩, satHit := 0,
    ldg := .reset, cap := .reset, lc := .reset, jtag := .reset, tiles := many 3 .reset, csis := many 2 .reset,
    mem := [], clay := [], clayK := 0, clayZ0 := false, clayZ1 := false, scc := [], ecc := [], sccEcc := [], wiping := [], freeK := 0, pending := [] }

end Sys2Proof.Machine
end

