-- ==== Sys2Proof/Machine/Bits.lean ====
section
/-! DEFINITION. Bit fields of words, composition of register values, byte order, total access to lists, and the access
codes of register fields. -/

namespace Sys2Proof.Machine

open Sys2Proof

/-! ### Fields -/

/-- Field [hi:lo] of a word, as a number. -/
def bits {n : Nat} (w : BitVec n) (hi lo : Nat) : Nat := (w.toNat >>> lo) % 2 ^ (hi + 1 - lo)

/-- Bit i of a word. -/
def bit {n : Nat} (w : BitVec n) (i : Nat) : Bool := w.toNat.testBit i

/-- Field [hi:lo] replaced. -/
def setBits (w : Word) (hi lo v : Nat) : Word :=
  let m := 2 ^ (hi + 1 - lo)
  BitVec.ofNat 32 (w.toNat - (bits w hi lo) * 2 ^ lo + (v % m) * 2 ^ lo)

/-- Bit i replaced. -/
def setBit (w : Word) (i : Nat) (b : Bool) : Word := setBits w i i (b2n b)

/-- A word from its fields: (lowest bit, width, value); what is not named reads 0 (00 R15, RSVD). -/
def mkWord : List (Nat × Nat × Nat) → Word
  | [] => 0
  | (lo, w, v) :: fs => BitVec.ofNat 32 ((v % 2 ^ w) * 2 ^ lo) ||| mkWord fs

/-! ### Access codes (00 R15 to R18) -/

/-- What a write does to a field. -/
inductive Acc where | rw | ro | w1c | wo | rw1s
  deriving DecidableEq, Repr

/-- A field of a register: its bits, access code, and the encodings that are not reserved, `min` to `max`. -/
structure Fld where
  hi : Nat
  lo : Nat
  acc : Acc
  min : Nat := 0
  max : Nat := 0xFFFFFFFF
  deriving DecidableEq, Repr

/-- The effect of a write on one field: RW takes a value that is not a reserved encoding (R18), W1C clears the bits
written 1, RW1S sets them, RO and WO keep what is stored. -/
def Fld.write (old new : Word) (f : Fld) : Nat :=
  let o := bits old f.hi f.lo
  let n := bits new f.hi f.lo
  match f.acc with
  | .rw => if f.min ≤ n ∧ n ≤ f.max then n else o
  | .ro => o
  | .wo => o
  | .w1c => o &&& (2 ^ (f.hi + 1 - f.lo) - 1 - n)
  | .rw1s => o ||| n

/-- The value a register holds after a write: each named field by its access code; RSVD bits stay 0 (R15). -/
def writeReg (fs : List Fld) (old new : Word) : Word :=
  mkWord (fs.map (fun f => (f.lo, f.hi + 1 - f.lo, f.write old new)))

/-! ### Lists of a fixed number of things -/

/-- The i-th element, or a default beyond the end. -/
def nth {α : Type} (l : List α) (i : Nat) (d : α) : α := l.getD i d

/-- The i-th element changed. -/
def upd {α : Type} (l : List α) (i : Nat) (f : α → α) : List α :=
  match l, i with
  | [], _ => []
  | x :: xs, 0 => f x :: xs
  | x :: xs, i + 1 => x :: upd xs i f

/-- Remove the first element a test accepts. -/
def dropFirst {α : Type} (p : α → Bool) : List α → List α
  | [] => []
  | x :: xs => if p x then xs else x :: dropFirst p xs

/-! ### Sparse tables by number: strictly rising, no default stored -/

/-- The entry under key k, or the default. -/
def look {α : Type} (t : List (Nat × α)) (k : Nat) (d : α) : α :=
  match t with
  | [] => d
  | (j, x) :: r => if j = k then x else look r k d

/-- The entry under key k set; an entry equal to the default is removed. -/
def put {α : Type} [DecidableEq α] (d : α) (t : List (Nat × α)) (k : Nat) (x : α) : List (Nat × α) :=
  match t with
  | [] => if x = d then [] else [(k, x)]
  | (j, y) :: r =>
    if k < j then (if x = d then (j, y) :: r else (k, x) :: (j, y) :: r)
    else if j = k then (if x = d then r else (k, x) :: r)
    else (j, y) :: put d r k x

/-! ### Bytes -/

/-- The little-endian bytes of a number (00 R13). -/
def leBytes : Nat → Nat → List Byte
  | 0, _ => []
  | n + 1, v => BitVec.ofNat 8 v :: leBytes n (v / 256)

/-- The number of little-endian bytes. -/
def fromLe : List Byte → Nat
  | [] => 0
  | b :: r => b.toNat + 256 * fromLe r

/-- The number of big-endian bytes. -/
def fromBe (bs : List Byte) : Nat := bs.foldl (fun a b => 256 * a + b.toNat) 0

/-- A number's w-bit two's-complement reading. -/
def asSigned (w v : Nat) : Int := if v % 2 ^ w < 2 ^ (w - 1) then (v % 2 ^ w : Nat) else (v % 2 ^ w : Nat) - (2 ^ w : Nat)

/-- The two's-complement encoding of an integer in w bits. -/
def toTwos (w : Nat) (v : Int) : Nat := (v % (2 ^ w : Nat)).toNat

/-- Clamp to a range. -/
def clampI (lo hi v : Int) : Int := if v < lo then lo else if hi < v then hi else v

/-- Ceiling division. -/
def cdiv (a b : Nat) : Nat := (a + b - 1) / b

/-! ### CRC-8 of the control port (06 R229, R230) -/

/-- One bit of the CRC-8. -/
def crc8Bit (c : Byte) : Byte := if c.getLsbD 7 then (c <<< 1) ^^^ 0x07 else c <<< 1

/-- One byte into the CRC-8. -/
def crc8Byte (c b : Byte) : Byte :=
  let x := c ^^^ b
  crc8Bit (crc8Bit (crc8Bit (crc8Bit (crc8Bit (crc8Bit (crc8Bit (crc8Bit x)))))))

/-- The CRC-8 of a byte sequence. -/
def crc8 (bs : List Byte) : Byte := bs.foldl crc8Byte 0xFF

/-- The bytes of a word, most significant first (00 R14). -/
def beBytes (w : Word) : List Byte := (leBytes 4 w.toNat).reverse

/-! ### CRC-32 of Slip frames (07 R272) -/

/-- One bit of the reflected CRC-32. -/
def crc32Bit (c : Word) : Word := if c.getLsbD 0 then (c >>> 1) ^^^ 0xEDB88320 else c >>> 1

/-- One byte into the CRC-32. -/
def crc32Byte (c : Word) (b : Byte) : Word :=
  let x := c ^^^ b.setWidth 32
  crc32Bit (crc32Bit (crc32Bit (crc32Bit (crc32Bit (crc32Bit (crc32Bit (crc32Bit x)))))))

/-- The CRC-32 of a byte sequence. -/
def crc32 (bs : List Byte) : Word := (bs.foldl crc32Byte 0xFFFFFFFF) ^^^ 0xFFFFFFFF

end Sys2Proof.Machine
end

