-- ==== Sys2Proof/Machine/Frames.lean ====
section
/-! DEFINITION. The bytes of the frames that arrive at the block: the command byte of the control port (06 R214),
control columns and frames of the Slip port (07 R265 to R273). -/

namespace Sys2Proof.Machine

open Sys2Proof

/-- What a command byte asks for: a read or a write with its tag, or nothing valid (06 R214). -/
inductive CpOp where
  | read (seq : BitVec 4)
  | write (seq : BitVec 4)
  | invalid
  deriving DecidableEq, Repr

/-- A command byte decoded: `OP` in bits 7 to 4, `SEQ` in bits 3 to 0 (06 R214). -/
def cpOp (b : Byte) : CpOp :=
  if b.toNat / 16 = 0x3 then .read (b.setWidth 4) else if b.toNat / 16 = 0xC then .write (b.setWidth 4) else .invalid

/-- The command byte of a read, of a write, with a tag (06 R214). -/
def cpCmdByte (wr : Bool) (seq : BitVec 4) : Byte := BitVec.ofNat 8 ((if wr then 0xC0 else 0x30) + seq.toNat)

/-- The bytes of a write frame, CMD first (06 R219, R224), as a write of a register. -/
def cpWriteFrame (addr : BitVec 7) (bs : List Byte) : Option Instr :=
  match bs with
  | [cmd, idx, d3, d2, d1, d0, crc] =>
    match cpOp cmd with
    | .write seq => some (.registerWrite ⟨seq, crc, addr⟩ idx (d3 ++ d2 ++ d1 ++ d0))
    | _ => none
  | _ => none

/-! ### Control columns (07 R266) -/

/-- The control columns that carry a value. -/
inductive SlipCol where
  | ack (n : BitVec 16)
  | nak (n : BitVec 16)
  | credit (vc : BitVec 2) (cum : BitVec 14)
  deriving DecidableEq, Repr

/-- The symbols K28.2, K28.3 and K28.0 of lane 0, by their 8b/10b byte. -/
def kAck : Byte := 0x5C
def kNak : Byte := 0x7C
def kCredit : Byte := 0x1C

/-- The check byte over two data bytes. -/
def colCheck (a b : Byte) : Byte := a ^^^ b ^^^ 0xA5

/-- A column: the K symbol of lane 0, two data bytes, the check byte. -/
def column (k : Byte) (v : BitVec 16) : List Byte :=
  [k, v.extractLsb' 8 8, v.extractLsb' 0 8, colCheck (v.extractLsb' 8 8) (v.extractLsb' 0 8)]

/-- The four lanes of a control column (R266). -/
def slipColumn : SlipCol → List Byte
  | .ack n => column kAck n
  | .nak n => column kNak n
  | .credit vc cum => column kCredit (vc ++ cum)

/-- A control column read; none when its check byte is wrong (R268). -/
def readColumn (k d1 d2 d3 : Byte) : Option SlipCol :=
  let v : BitVec 16 := d1 ++ d2
  if d3 ≠ colCheck d1 d2 then none
  else if k = kAck then some (.ack v)
  else if k = kNak then some (.nak v)
  else if k = kCredit then some (.credit (v.extractLsb' 14 2) (v.extractLsb' 0 14))
  else none

/-! ### Frames (07 R270, R272, R273) -/

/-- Credit units of a frame (R273). -/
def frameCost (f : SlipFrame) : Nat := cdiv (16 + f.len.toNat) 64

/-- Bytes of a frame's body: header, payload, pad, CRC (R295). -/
def frameBody (f : SlipFrame) : Nat := 16 + (f.len.toNat + 3) / 4 * 4 + 4

/-- Header bytes 0 to 9, byte 0 most significant. -/
def frameHead (f : SlipFrame) : BitVec 80 :=
  f.typ ++ f.vc ++ f.rsvd.extractLsb' 10 2 ++ f.rsvd.extractLsb' 8 2 ++ f.qid ++ f.rsvd.extractLsb' 5 3 ++ f.len ++ f.seq ++ f.job ++
    f.qual ++ BitVec.ofBool f.failed ++ f.rsvd.extractLsb' 0 5

/-- The 16 header bytes, in the order sent (R270). -/
def frameHeader (f : SlipFrame) : List Byte :=
  let h : BitVec 128 := frameHead f ++ f.tstamp ++ f.rsvd2
  (List.range 16).map (fun k => h.extractLsb' (8 * (15 - k)) 8)

/-- What the CRC covers: header, payload, pad bytes of zero (R272). -/
def frameCovered (f : SlipFrame) : List Byte :=
  frameHeader f ++ f.payload ++ List.replicate ((4 - f.payload.length % 4) % 4) 0

/-- The CRC-32 of a frame (R272). -/
def frameCrc (f : SlipFrame) : Word := crc32 (frameCovered f)

/-- The body of a frame as sent: its CRC least significant byte first (R265, R272). -/
def frameBytes (f : SlipFrame) : List Byte := frameCovered f ++ leBytes 4 f.crc.toNat

/-- The lane of byte k of a frame body and its column after the start-of-frame column (R265). -/
def laneOf (k : Nat) : Nat × Nat := (k % 4, k / 4)

/-- The frame with its CRC computed. -/
def withCrc (f : SlipFrame) : SlipFrame := { f with crc := frameCrc f }

end Sys2Proof.Machine
end

