-- ==== Sys2Proof/WellFormed.lean ====
section
/-! DEFINITION. Which command terms stand for an event of the device: the operand checks that the types of `Instr` do not already make. -/

namespace Sys2Proof

/-- A received frame carries as many payload bytes as its `LEN` says (07 R270) and its CRC is good (R272, R289); otherwise the event is
BAD_FRAME. -/
def SlipFrame.wf (fr : SlipFrame) : Bool := fr.payload.length == fr.len.toNat && fr.crc == Machine.frameCrc fr

/-- What one sensor transfer can bring: at most 8 bytes (08 R336 `LEN`), 1 to 8 conversions (08 R323, `AVG` of 2 bits). -/
def SampleIn.wf : SampleIn → Bool
  | .bytes bs => bs.length ≤ 8
  | .busFault _ => true
  | .adc nv _ => 1 ≤ nv.length && nv.length ≤ 8
  | .counter => true
  | .pdm => true
  | .level _ => true

/-- The command term can arrive. -/
def Instr.wf : Instr → Bool
  | .cpInvalidCommand cmd => Machine.cpOp cmd == .invalid
  | .itemFrameReceive _ fr => fr.wf && fr.typ == 1
  | .pingReceive _ fr => fr.wf && fr.typ == 4 && fr.vc == 0
  | .pongReceive _ fr => fr.wf && fr.typ == 5 && fr.vc == 0
  | .reservedTypeFrameReceive _ fr => fr.wf && !(fr.typ == 1) && !((fr.typ == 4 || fr.typ == 5) && fr.vc == 0)
  | .badFrame _ (.crc fr) => fr.crc != Machine.frameCrc fr
  | .badControlColumn _ (.check k d1 d2 d3) => (Machine.readColumn k d1 d2 d3).isNone
  | .sampleDone _ r => r.wf
  | .manualTransferDone _ (.ok bs) _ => bs.length ≤ 8
  | .extest cells => cells.all (fun c => (Machine.ballSignal c.1).isSome)
  | .samplePreload cells => cells.all (fun c => (Machine.ballSignal c.1).isSome)
  | .csiLine _ pk => pk.payload.length ≤ 0xFFFF
  | _ => true

end Sys2Proof
end

