-- ==== Sys2Proof/Machine/Formats.lean ====
section
/-! DEFINITION. The ten number formats (13 R517 to R525): element packing, exact values, rounding, saturation, special values. -/

namespace Sys2Proof.Machine

open Sys2Proof

/-! ### Format codes (R517) -/

def fI4 : Nat := 0
def fU4 : Nat := 1
def fI8 : Nat := 2
def fU8 : Nat := 3
def fI16 : Nat := 4
def fI32 : Nat := 5
def fE4M3 : Nat := 6
def fE5M2 : Nat := 7
def fBF16 : Nat := 8
def fFP16 : Nat := 9

/-- Bits of an element. -/
def fBits (f : Nat) : Nat := if f ≤ 1 then 4 else if f ≤ 3 then 8 else if f = 4 then 16 else if f = 5 then 32 else if f ≤ 7 then 8 else 16

/-- The format is an integer format; a signed one. -/
def fInt (f : Nat) : Bool := decide (f ≤ 5)
def fSigned (f : Nat) : Bool := f == 0 || f == 2 || f == 4 || f == 5

/-- The least and greatest value of an integer format. -/
def fMin (f : Nat) : Int := if fSigned f then -(2 ^ (fBits f - 1) : Nat) else 0
def fMax (f : Nat) : Int := if fSigned f then (2 ^ (fBits f - 1) : Nat) - 1 else (2 ^ fBits f : Nat) - 1

/-- Bytes that n elements take, packed (12 R490). -/
def fBytes (f n : Nat) : Nat := cdiv (n * fBits f) 8

/-! ### Packing (12 R490) -/

/-- The nibbles of a byte row, the lower first. -/
def nibbles (bs : List Byte) : List Nat := (bs.map (fun b => [b.toNat % 16, b.toNat / 16])).flatten

/-- Little-endian elements of w bytes; at most `fuel` of them. -/
def chunks (w : Nat) : Nat → List Byte → List Nat
  | 0, _ => []
  | fuel + 1, bs => if bs.isEmpty then [] else fromLe (bs.take w) :: chunks w fuel (bs.drop w)

/-- The element codes of a packed tensor. -/
def elems (f : Nat) (bs : List Byte) : List Nat := if f ≤ 1 then nibbles bs else chunks (fBits f / 8) bs.length bs

/-- Pairs of nibbles as bytes; an odd last one is paired with `pad`. -/
def nibBytes (pad : BitVec 4) : List Nat → List Byte
  | [] => []
  | [x] => [BitVec.ofNat 8 (x % 16 + 16 * pad.toNat)]
  | x :: y :: r => BitVec.ofNat 8 (x % 16 + 16 * (y % 16)) :: nibBytes pad r

/-- The bytes of element codes. -/
def packElems (f : Nat) (pad : BitVec 4) (cs : List Nat) : List Byte :=
  if f ≤ 1 then nibBytes pad cs else (cs.map (leBytes (fBits f / 8))).flatten

/-! ### Integers -/

/-- The value of an integer code. -/
def intVal (f c : Nat) : Int := if fSigned f then asSigned (fBits f) c else ((c % 2 ^ fBits f : Nat) : Int)

/-- An integer saturated to its format (R519): the code, and whether it was changed. -/
def satInt (f : Nat) (v : Int) : Nat × Bool :=
  (toTwos (fBits f) (clampI (fMin f) (fMax f) v), decide (v < fMin f) || decide (fMax f < v))

/-- A quotient rounded to nearest, ties to even (R518); the divisor is positive. -/
def divEven (n : Int) (d : Nat) : Int :=
  let q := n / (d : Int)
  let r := (n % (d : Int)).toNat
  if d < 2 * r then q + 1 else if 2 * r = d ∧ q % 2 ≠ 0 then q + 1 else q

/-! ### Floats -/

/-- A number with a sign of its own for zero: (-1)^neg × m × 2^e. -/
structure Flo where
  neg : Bool
  m : Nat
  e : Int
  deriving DecidableEq, Repr

/-- What reading an element gives: NaN, or a value, with a mark of an infinity read as the largest finite value (R521). -/
inductive Rdv where
  | nan
  | num (x : Flo) (inf : Bool)
  deriving DecidableEq, Repr

/-- Mantissa bits, exponent bias, exponent field of all ones, and the largest finite value as m × 2^e. -/
structure FLay where
  mb : Nat
  bias : Nat
  top : Nat
  maxM : Nat
  maxE : Int
  deriving DecidableEq, Repr

/-- The layout of a float format. -/
def fLay (f : Nat) : FLay :=
  if f = 6 then ⟨3, 7, 15, 14, 5⟩
  else if f = 7 then ⟨2, 15, 31, 7, 13⟩
  else if f = 8 then ⟨7, 127, 255, 255, 120⟩
  else ⟨10, 15, 31, 2047, 5⟩

/-- A float code read (R517, R521). -/
def readFloat (f c : Nat) : Rdv :=
  let l := fLay f
  let neg := c.testBit (fBits f - 1)
  let ex := (c / 2 ^ l.mb) % (l.top + 1)
  let m := c % 2 ^ l.mb
  let lsb : Int := 1 - (l.bias : Int) - (l.mb : Int)
  if ex = l.top ∧ f ≠ 6 then (if m = 0 then .num ⟨neg, l.maxM, l.maxE⟩ true else .nan)
  else if f = 6 ∧ ex = 15 ∧ m = 7 then .nan
  else if ex = 0 then .num ⟨neg, m, lsb⟩ false
  else .num ⟨neg, 2 ^ l.mb + m, lsb + ((ex : Int) - 1)⟩ false

/-- The canonical NaN of an output format; 0 for an integer format (R522). -/
def canonNan (f : Nat) : Nat := if f = 6 then 0x7F else if f = 7 then 0x7E else if f = 8 then 0x7FC0 else if f = 9 then 0x7E00 else 0

/-- num / den × 2^e, positive, rounded to `prec` bits with no bit below 2^emin: to nearest even, or upward. The result is
(q, e') with value q × 2^e' and q < 2^prec. -/
def roundPos (prec : Nat) (emin : Int) (up : Bool) (num den : Nat) (e : Int) : Nat × Int :=
  if num = 0 then (0, emin)
  else
    let l0 : Int := (Nat.log2 num : Int) - (Nat.log2 den : Int)
    let below := if 0 ≤ l0 then decide (num < den * 2 ^ l0.toNat) else decide (num * 2 ^ (-l0).toNat < den)
    let l := if below then l0 - 1 else l0
    let el := max (l + e - ((prec : Int) - 1)) emin
    let sh := e - el
    let n := if 0 ≤ sh then num * 2 ^ sh.toNat else num
    let d := if 0 ≤ sh then den else den * 2 ^ (-sh).toNat
    let q := n / d
    let r := n % d
    let q := if up then (if r = 0 then q else q + 1)
      else if d < 2 * r ∨ (2 * r = d ∧ q % 2 = 1) then q + 1 else q
    if q = 2 ^ prec then (2 ^ (prec - 1), el + 1) else (q, el)

/-- The magnitude q × 2^e, normalised as `roundPos` leaves it, lies above m × 2^e'. -/
def above (q : Nat) (e : Int) (m : Nat) (e' : Int) : Bool := decide (e' < e) || (e == e' && decide (m < q))

/-- The code of num / den × 2^e in float format f, rounded to nearest even or upward, and whether it saturated (R518, R520). -/
def writeFloat (f : Nat) (up : Bool) (neg : Bool) (num den : Nat) (e : Int) : Nat × Bool :=
  let l := fLay f
  let r := roundPos (l.mb + 1) (1 - (l.bias : Int) - (l.mb : Int)) up num den e
  let sat := above r.1 r.2 l.maxM l.maxE
  let q := if sat then l.maxM else r.1
  let el := if sat then l.maxE else r.2
  let body := if q < 2 ^ l.mb then q else (el + (l.bias : Int) + (l.mb : Int)).toNat * 2 ^ l.mb + (q - 2 ^ l.mb)
  (b2n neg * 2 ^ (fBits f - 1) + body, sat)

/-! ### Exact sums and products; the internal value (R525) -/

/-- An exact number m × 2^e. -/
structure Dy where
  m : Int
  e : Int
  deriving DecidableEq, Repr

def Dy.zero : Dy := ⟨0, 0⟩

def Dy.ofInt (v : Int) : Dy := ⟨v, 0⟩

/-- Value of a float. -/
def Flo.dy (x : Flo) : Dy := ⟨if x.neg then -(x.m : Int) else (x.m : Int), x.e⟩

/-- The mantissa at a lower exponent. -/
def Dy.at (x : Dy) (e : Int) : Int := x.m * (2 ^ (x.e - e).toNat : Nat)

def Dy.add (x y : Dy) : Dy :=
  let e := min x.e y.e
  ⟨x.at e + y.at e, e⟩

def Dy.mul (x y : Dy) : Dy := ⟨x.m * y.m, x.e + y.e⟩

def Dy.neg (x : Dy) : Dy := ⟨-x.m, x.e⟩

/-- x < y. -/
def Dy.lt (x y : Dy) : Bool :=
  let e := min x.e y.e
  decide (x.at e < y.at e)

/-- The internal value: 24 significant bits, the exponent range of BF16, saturating (R525). -/
def Dy.inner (x : Dy) : Dy × Bool :=
  let r := roundPos 24 (-149) false x.m.natAbs 1 x.e
  let sat := above r.1 r.2 (2 ^ 24 - 1) 104
  let q : Int := if sat then (2 ^ 24 - 1 : Nat) else (r.1 : Int)
  (⟨if x.m < 0 then -q else q, if sat then 104 else r.2⟩, sat)

/-! ### Results: a code and the saturation kinds counted for it (R524, R557) -/

/-- Saturation kinds. -/
def kACC : Nat := 0
def kOUT : Nat := 1
def kCLIP : Nat := 2
def kESC : Nat := 3
def kFLOAT : Nat := 4

/-- An element written: its code, and the kinds of saturation counted for it. -/
abbrev Elt := Nat × List Nat

/-- A kind, if the condition holds. -/
def kIf (c : Bool) (k : Nat) : List Nat := if c then [k] else []

/-- An exact number written to a float format; the sign of an exact zero is `zs`. -/
def dyFloat (f : Nat) (x : Dy) (zs : Bool) : Elt :=
  let r := writeFloat f false (if x.m = 0 then zs else decide (x.m < 0)) x.m.natAbs 1 x.e
  (r.1, kIf r.2 kFLOAT)

/-- An exact number rounded to an integer. -/
def Dy.round (x : Dy) : Int :=
  if 0 ≤ x.e then x.m * (2 ^ x.e.toNat : Nat) else divEven x.m (2 ^ (-x.e).toNat)

/-- An exact number written to a format, an integer saturation counted under kind k. -/
def dyTo (f : Nat) (k : Nat) (x : Dy) (zs : Bool) : Elt :=
  if fInt f then
    let r := satInt f x.round
    (r.1, kIf r.2 k)
  else dyFloat f x zs

/-- An element read as a value: an integer, or a float (R521, R522). -/
def readVal (f c : Nat) : Rdv :=
  if fInt f then
    let v := intVal f c
    .num ⟨decide (v < 0), v.natAbs, 0⟩ false
  else readFloat f c

/-- The element is an infinite or NaN input (R524). -/
def badInput (f c : Nat) : Bool :=
  match readVal f c with
  | .nan => true
  | .num _ i => i

/-- Kinds counted for the inputs of a tensor. -/
def inputEv (f : Nat) (cs : List Nat) : List Nat := if fInt f then [] else (cs.filter (badInput f)).map (fun _ => kFLOAT)

end Sys2Proof.Machine
end

