-- ==== Sys2Proof/Config.lean ====
section
/-! DEFINITION. The free values of the model: what the manual leaves open. None has a body, so no proof can see what
one is, and a claim is true whatever it is. Each names its log entry (notes/assumptions). -/

namespace Sys2Proof.Config

/-- Fast-clock cycles that elapse between two stamps under one slow edge: the manual fixes the offset a stamp
adds (05 R194) but the instant of an event inside a slow tick comes from outside. DESIGN CHOICE, log 2. -/
opaque fastCycles : Nat → Nat

/-- Whether a RESET_N pulse between 1 us and 10 us is taken (18 R709: either ignored or a reset). DESIGN CHOICE, log 3. -/
opaque resetPulseTaken : Nat → Bool

/-- Content of clay memory not written since its tile powered up (05 R192: undefined). DESIGN CHOICE, log 4. -/
opaque clayByte : Nat → Nat → Byte

/-- Events that supervisor firmware has consumed from Q16383 since the last event was written (11 R465 gives
no rate). DESIGN CHOICE, log 5. -/
opaque eventsConsumed : Nat → Nat

/-- The content of the supervisor ROM (15 R631: the manual gives none of its bytes). DESIGN CHOICE, log 6. -/
opaque romByte : Nat → Byte

/-- Sign of an exact float zero formed by ADD, SUB, MUL or by an accumulation (13 R525, R526 do not give it). DESIGN CHOICE, log 7. -/
opaque zeroSign : Nat → Bool

/-- Whether a scan-chain observation cell reads 1: the boundary-scan register samples ball levels that the
manual does not number. DESIGN CHOICE, log 8. -/
opaque scanCell : Nat → Nat → Bool

/-- The unused upper half of the last byte of a packed 4-bit tensor with an odd number of elements (12 R490 does not
say what a write leaves there). DESIGN CHOICE, log 9. -/
opaque padNibble : Nat → BitVec 4

/-- An output element of a group-quantised CONV whose groups cross pixels: the layout of A's group scales is not given
for it (13 R542). DESIGN CHOICE, log 18. -/
opaque convElem : Nat → BitVec 16

/-- Whether such an element saturated, and how many surplus escape codes the command decoded (13 R524, R541). DESIGN CHOICE, log 18. -/
opaque convSat : Nat → Bool
opaque convEsc : Nat → Nat

/-- The engine, job and command offset of a saturation event that a write of `SAT_CNT` raises: no command stands behind it
(13 R560). DESIGN CHOICE, log 102. -/
opaque satWriteEng : Nat → Nat
opaque satWriteJob : Nat → BitVec 16
opaque satWriteOff : Nat → BitVec 32

/-- The raw value of a PDM window whose mean amplitude is 32,768, which 16 signed bits cannot hold (08 R342). DESIGN CHOICE, log 14. -/
opaque pdmPeak : Nat → BitVec 16

/-- The maxabs of a group whose elements are all NaN (13 R533 leaves every element out). DESIGN CHOICE, log 19. -/
opaque emptyMax : Nat → BitVec 16

/-- The maxabs that QPACK takes where the one it is given is negative (13 R534 derives scales from magnitudes). DESIGN CHOICE, log 21. -/
opaque negMax : Nat → BitVec 16

/-- `FAIL` of a training state that ends after 2 ms with no cause of the table of 07 R278. DESIGN CHOICE, log 27. -/
opaque trainCause : Nat → BitVec 3

/-- The step L1 to L7 at which an install under way stands, and the bytes of its pass, by time (15 R612, R628): the manual
bounds only the whole (R617). DESIGN CHOICE, log 34. -/
opaque installStep : Nat → Nat
opaque passBytes : Nat → Nat

/-- Fuse bits already blown when power fails while fuses are programmed (15 R629, 16 R655). DESIGN CHOICE, log 35. -/
opaque fusesDone : Nat → Nat
opaque keyMask : Nat → BitVec 512

/-- Whether a posted window write whose island was reset before the reply had been made (01 R62: the word is unknown). DESIGN CHOICE, log 41. -/
opaque peerWritten : Nat → Bool

/-- A byte of a table row that SCAT to a queue does not write (12 R505 writes the rows that its indices name; a queue takes the whole table,
R491). DESIGN CHOICE, log 101. -/
opaque scatByte : Nat → Nat → Byte

/-- Whether SDA is held low at the end of a transfer that the start of the next slot, a disable or a reset of the channel's island
abandons (08 R343 counts such transfers; the level comes from outside). DESIGN CHOICE, log 99. -/
opaque sdaHeld : Nat → Bool

end Sys2Proof.Config
end

