-- ==== Sys2Proof/Machine/Memory.lean ====
section
/-! DEFINITION. Byte memories in canonical form, the ECC marks of 32-bit words, and reads and writes of words and byte rows over
the internal address map (01 R39) and the private scale cache. -/

namespace Sys2Proof.Machine

open Sys2Proof

/-! ### Canonical cell lists -/

/-- The byte at an address, if listed. -/
def cellAt (m : List Host.Cell) (a : Nat) : Option Byte :=
  match m with
  | [] => none
  | (k, b) :: r => if k = a then some b else if a < k then none else cellAt r a

/-- A byte set; `keep` says that the new byte stays listed (it is not what an unlisted address reads as). -/
def cellSet (keep : Bool) (m : List Host.Cell) (a : Nat) (b : Byte) : List Host.Cell :=
  match m with
  | [] => if keep then [(a, b)] else []
  | (k, c) :: r =>
    if a < k then (if keep then (a, b) :: (k, c) :: r else (k, c) :: r)
    else if k = a then (if keep then (a, b) :: r else r)
    else (k, c) :: cellSet keep r a b

/-- Addresses rise strictly above `lo`. -/
def risingFrom (lo : Nat) : List Host.Cell → Bool
  | [] => true
  | (k, _) :: r => decide (lo ≤ k) && risingFrom (k + 1) r

/-- The canonical form of a memory whose unlisted bytes read 0. -/
def Memory.wf (m : List Host.Cell) : Bool := risingFrom 0 m && m.all (fun c => c.2 != 0)

/-- The canonical form of clay memory: `z` says of an address that its unlisted bytes read 0. -/
def Memory.wfClay (z : Nat → Bool) (m : List Host.Cell) : Bool := risingFrom 0 m && m.all (fun c => !z c.1 || c.2 != 0)

/-- The byte of a memory whose unlisted bytes read 0. -/
def zget (m : List Host.Cell) (a : Nat) : Byte := (cellAt m a).getD 0

/-- A byte of such a memory set. -/
def zset (m : List Host.Cell) (a : Nat) (b : Byte) : List Host.Cell := cellSet (b != 0) m a b

/-- Bytes set from an address upward. -/
def zsetMany (m : List Host.Cell) (a : Nat) : List Byte → List Host.Cell
  | [] => m
  | b :: r => zsetMany (zset m a b) (a + 1) r

/-- The cells of [lo, hi) removed: they read what an unlisted byte reads. -/
def clearRange (m : List Host.Cell) (lo hi : Nat) : List Host.Cell := m.filter (fun c => decide (c.1 < lo) || decide (hi ≤ c.1))

/-! ### Memory of the block -/

/-- The address lies in the window of clay memory (01 R39). -/
def isClay (a : Nat) : Bool := decide (0x80000000 ≤ a) && decide (a < 0xC0000000)

/-- The tile of a clay address has been wiped. -/
def clayZeroed (s : State) (a : Nat) : Bool := if a < 0xA0000000 then s.clayZ0 else s.clayZ1

/-- One byte of internal memory: on-die memory, ROM, or clay, whose unwritten bytes are free values (05 R192) until a wipe
(DESIGN CHOICE, log 4; DEDUCED, log 80). -/
def readByte (s : State) (a : Nat) : Byte :=
  if isClay a then (cellAt s.clay a).getD (if clayZeroed s a then 0 else Config.clayByte s.clayK a)
  else if a < 0x40000 then Config.romByte a
  else zget s.mem a

/-- The part of the SCE SRAM that is reserved but mapped: it reads 0 and discards writes (10 R386). -/
def sceReserved (a : Nat) : Bool := decide (0x2807E000 ≤ a) && decide (a < 0x2807F700)

/-- One byte of internal memory written. ROM is never written (01 R41). -/
def writeByte (s : State) (a : Nat) (b : Byte) : State :=
  if isClay a then { s with clay := cellSet (!clayZeroed s a || b != 0) s.clay a b }
  else if decide (a < 0x40000) || sceReserved a then s
  else { s with mem := zset s.mem a b }

/-- n bytes from an address upward. -/
def readBytes (s : State) (a : Nat) : Nat → List Byte
  | 0 => []
  | n + 1 => readByte s a :: readBytes s (a + 1) n

/-- Bytes written from an address upward, error marks left as they are. -/
def writeBytesRaw (s : State) (a : Nat) : List Byte → State
  | [] => s
  | b :: r => writeBytesRaw (writeByte s a b) (a + 1) r

/-- The size of the word that a check code covers: 32 bits on die, 64 bits in clay (05 R711, 17 R665). -/
def eccSize (a : Nat) : Nat := if isClay a then 8 else 4

/-- A word that [a, a + n) touches holds an uncorrectable error. -/
def eccHit (s : State) (a n : Nat) : Bool :=
  s.ecc.any (fun w => decide (w < a + n) && decide (a < w + eccSize w))

/-- The marks that a write of [a, a + n) clears: those of words it covers whole; a partial write leaves the word
marked (05 R711). -/
def eccClear (s : State) (a n : Nat) : State :=
  { s with ecc := s.ecc.filter (fun w => !(decide (a ≤ w) && decide (w + eccSize w ≤ a + n))) }

/-- Bytes written, with the ECC rule of 05 R711. -/
def writeBytes (s : State) (a : Nat) (bs : List Byte) : State := eccClear (writeBytesRaw s a bs) a bs.length

/-- A 32-bit word of internal memory (00 R13). -/
def readWord (s : State) (a : Nat) : Word := BitVec.ofNat 32 (fromLe (readBytes s a 4))

/-- A 32-bit word written. -/
def writeWord (s : State) (a : Nat) (w : Word) : State := writeBytes s a (leBytes 4 w.toNat)

/-- No word of [lo, hi) holds an error any more: its check bits are valid (05 R189). -/
def clearEcc (s : State) (lo hi : Nat) : State := { s with ecc := s.ecc.filter (fun w => !(decide (lo ≤ w) && decide (w < hi))) }

/-- [lo, hi) zeroed with valid check bits: a wipe, or power lost (05 R189, 04 R122). -/
def zeroRange (s : State) (lo hi : Nat) : State := clearEcc { s with mem := clearRange s.mem lo hi } lo hi

/-- The memory of a clay tile wiped: [lo, hi) is its window. -/
def wipeClay (s : State) (lo hi : Nat) : State :=
  let t := { s with clay := clearRange s.clay lo hi, ecc := s.ecc.filter (fun w => !(decide (lo ≤ w) && decide (w < hi))) }
  if lo < 0xA0000000 then { t with clayZ0 := true } else { t with clayZ1 := true }

/-- The memory of a clay tile lost with its power: undefined from then on. -/
def loseClay (s : State) (lo hi : Nat) : State :=
  let t := { s with clay := clearRange s.clay lo hi, clayK := s.clayK + 1, ecc := s.ecc.filter (fun w => !(decide (lo ≤ w) && decide (w < hi))) }
  if lo < 0xA0000000 then { t with clayZ0 := false } else { t with clayZ1 := false }

/-- Bytes of the scale cache written: its words carry error marks by the same rule (05 R711). -/
def sccWrite (s : State) (off : Nat) (bs : List Byte) : State :=
  { s with scc := zsetMany s.scc off bs, sccEcc := s.sccEcc.filter (fun w => !(decide (off ≤ w) && decide (w + 4 ≤ off + bs.length))) }

/-- [lo, hi) of the scale cache zeroed with valid check bits. -/
def sccZero (s : State) (lo hi : Nat) : State :=
  { s with scc := clearRange s.scc lo hi, sccEcc := s.sccEcc.filter (fun w => !(decide (lo ≤ w) && decide (w < hi))) }

/-- A word of the scale cache that [off, off + n) touches holds an uncorrectable error. -/
def sccHit (s : State) (off n : Nat) : Bool := s.sccEcc.any (fun w => decide (w < off + n) && decide (off < w + 4))

/-- Every byte of [a, a + n) written with zero. -/
def zeroBytes (s : State) (a n : Nat) : State :=
  if isClay a then writeBytes s a (List.replicate n 0) else zeroRange s a (a + n)

end Sys2Proof.Machine
end

