-- ==== Sys2Proof/Machine/Part.lean ====
section
/-! DEFINITION. What the part is: its variant, the tiles present, islands and power domains (01 R32, 04 R122), the life-cycle state,
and the level at which each power state holds each domain. -/

namespace Sys2Proof.Machine

open Sys2Proof

/-! ### Variant (00 R2 to R12) -/

/-- Tensor engines present: two on H grade (00 R3). -/
def nTe (s : State) : Nat := if s.fuses.hgrade then 2 else 4

/-- The tile's entry of `State.tiles`. -/
def tileIx : Tile → Nat
  | .t0 => 0
  | .t1 => 1
  | .io => 2

/-- The tile is recorded in fuses (00 R11). -/
def tileFused (s : State) : Tile → Bool
  | .t0 => decide (1 ≤ s.fuses.clay)
  | .t1 => decide (2 ≤ s.fuses.clay)
  | .io => s.fuses.iot

/-- The tile answered its power-on probe. -/
def tileAnswers (s : State) : Tile → Bool
  | .t0 => s.boot.probe.clay0
  | .t1 => s.boot.probe.clay1
  | .io => s.boot.probe.iot

/-- The tile's state. -/
def tileSt (s : State) (t : Tile) : TileSt := nth s.tiles (tileIx t) .reset

/-- The device treats the tile as present: assembled, probed and not declared failed (00 R12, 17 R669). -/
def tilePresent (s : State) (t : Tile) : Bool := tileFused s t && tileAnswers s t && !(tileSt s t).failed

/-- Clay tiles present (15 R607, N_CLAY). -/
def nClay (s : State) : Nat := b2n (tilePresent s .t0) + b2n (tilePresent s .t1)

/-- `CP_VARIANT.TILE_FAIL` (00 R9, R11). -/
def tileFail (s : State) : Bool :=
  (tileFused s .t0 && !tileAnswers s .t0) || (tileFused s .t1 && !tileAnswers s .t1) || (tileFused s .io && !tileAnswers s .io)

/-! ### Islands and domains (01 R32) -/

/-- The power domain of an island's logic. -/
def islPd (i : Nat) : Nat :=
  if i ≤ 1 then 0 else if i = 2 then 1 else if i ≤ 19 then 2 else if i = 20 then 3 else if i = 21 then 5
  else if i ≤ 24 then 7 else if i ≤ 26 then 9 else if i ≤ 30 then 10 + (i - 27) else if i ≤ 34 then 10 + (i - 31)
  else if i ≤ 42 then 14 else if i ≤ 50 then 15 else if i ≤ 53 then 16 else if i = 54 then 17 else if i ≤ 56 then 18
  else if i = 57 then 0 else if i = 58 then 19 else if i = 59 then 2 else if i = 60 then 20 else if i = 61 then 21
  else if i = 62 then 22 else 23

/-- The island belongs to a fused-off engine or an absent tile (00 R3, R5; 01 `ISL_STATE.ABSENT`). -/
def islAbsent (s : State) (i : Nat) : Bool :=
  if i = 29 ∨ i = 30 ∨ i = 33 ∨ i = 34 then s.fuses.hgrade
  else if i = 60 then !tilePresent s .t0
  else if i = 61 then !tilePresent s .t1
  else if i = 62 then !tilePresent s .io
  else false

/-- The domain is never powered on this part (00 R3, R5). -/
def pdAbsent (s : State) (n : Nat) : Bool :=
  if n = 12 ∨ n = 13 then s.fuses.hgrade
  else if n = 20 then !tilePresent s .t0
  else if n = 21 then !tilePresent s .t1
  else if n = 22 then !tilePresent s .io
  else false

/-- The present level of a domain. -/
def pdLevel (s : State) (n : Nat) : PdLevel := nth s.pwr.pd n .off

/-- The domain is powered and clocked. -/
def pdOn (s : State) (n : Nat) : Bool := pdLevel s n == .on

/-- The domain is powered: On or Gated. -/
def pdPowered (s : State) (n : Nat) : Bool := pdLevel s n == .on || pdLevel s n == .gated

/-- The island's entry. -/
def islSt (s : State) (i : Nat) : Isl := nth s.isl i .reset

/-- The island is clocked by PLL0 (05 R167): the Loam islands and I21. -/
def pll0Fed (t : Nat) : Bool := decide (21 ≤ t) && decide (t ≤ 53)

/-- The island is neither held in reset nor stopped by a relock of PLL0 (04 R154). -/
def islRuns (s : State) (t : Nat) : Bool := !(islSt s t).held && !(pll0Fed t && s.clk.relock0)

/-- The memory range [a, a + n) meets [lo, hi). -/
def meets (a n lo hi : Nat) : Bool := decide (a < hi) && decide (lo < a + n)

/-- An island that serves part of the range is held in reset: a request to it waits (05 R713). -/
def rangeHeld (s : State) (a n : Nat) : Bool :=
  ((List.range 16).any (fun b => (islSt s (35 + b)).held && meets a n (0x10000000 + b * 0x80000) (0x10080000 + b * 0x80000))) ||
  ((List.range 4).any (fun b => (islSt s (31 + b)).held && meets a n (0x18000000 + b * 0x40000) (0x18040000 + b * 0x40000))) ||
  ((islSt s 54).held && meets a n 0x20000000 0x20200000) || ((islSt s 20).held && meets a n 0x28000000 0x28080000) ||
  ((islSt s 60).held && meets a n 0x80000000 0xA0000000) || ((islSt s 61).held && meets a n 0xA0000000 0xC0000000)

/-- `ISL_STATE.STATE`: 0 RUN, 1 GATED, 2 RETAINED, 3 OFF, 4 RESET (01). -/
def islState (s : State) (i : Nat) : Nat :=
  if islAbsent s i || (islSt s i).held then 4
  else match pdLevel s (islPd i) with
    | .on => 0
    | .gated => 1
    | .ret => 2
    | .off => 3

/-- The level of a domain in a stable state (04 R122), for the part as it is (R3, R5). -/
def levelIn (s : State) (st : PState) (n : Nat) : PdLevel :=
  if pdAbsent s n then .off
  else match st with
    | .run => .on
    | .idle => if n ≤ 4 ∨ n = 6 ∨ n = 8 ∨ n = 17 then .on else .gated
    | .watch => if n ≤ 4 then .on else if n = 6 ∨ n = 8 ∨ n = 17 then .ret else .off
    | .hibernate =>
      if n = 0 then .on
      else if n = 1 then (if s.hp.armed then .on else .off)
      else if n = 17 then (if s.pwr.sedret then .ret else .off)
      else .off
    | .off => .off

/-! ### Life cycle (16 R630) -/

/-- The life-cycle states. -/
inductive Life where | blank | develop | sealed | retired
  deriving DecidableEq, Repr

/-- The state that a pattern of the fuses decodes to; any other pattern is RETIRED (16 R630). -/
def lifeOf (lcf : BitVec 3) : Life :=
  if lcf = 0b000 then .blank
  else if lcf = 0b001 then .develop
  else if lcf = 0b011 then .sealed
  else .retired

/-- The present life-cycle state. -/
def life (s : State) : Life := lifeOf s.boot.lcNow

/-- `LC_STATE.STATE`. -/
def Life.code : Life → Nat
  | .blank => 0
  | .develop => 1
  | .sealed => 2
  | .retired => 3

/-- A key slot is valid (16 R641). -/
def keyValid (s : State) (k : KeySlot) : Bool :=
  k.valid && !k.revoked && !s.fuses.keykill && life s != .retired

/-- The anti-rollback counter: the number of blown bits (15 R600). -/
def rollbackCount (s : State) : Nat := ((List.range 64).filter (fun i => s.fuses.rollback.getLsbD i)).length

/-! ### Engines (12 R473) -/

/-- The engine's entry of `State.engs`. -/
def engIx : Eng → Nat
  | .te0 => 0
  | .te1 => 1
  | .te2 => 2
  | .te3 => 3
  | .su => 4
  | .dm0 => 5
  | .dm1 => 6
  | .sce => 7

/-- The engines but the SCE, in order. -/
def loamEngs : List Eng := [.te0, .te1, .te2, .te3, .su, .dm0, .dm1]

/-- The island that controls an engine (12 R473). -/
def engIsl : Eng → Nat
  | .te0 => 31
  | .te1 => 32
  | .te2 => 33
  | .te3 => 34
  | .su => 51
  | .dm0 => 52
  | .dm1 => 53
  | .sce => 20

/-- TEn. -/
def teOf (n : Nat) : Eng := if n = 0 then .te0 else if n = 1 then .te1 else if n = 2 then .te2 else .te3

/-- The engine is a tensor engine. -/
def engIsTe : Eng → Bool
  | .te0 => true
  | .te1 => true
  | .te2 => true
  | .te3 => true
  | _ => false

/-- An engine's state. -/
def engSt (s : State) (e : Eng) : EngSt := nth s.engs (engIx e) .reset

/-- An engine's state changed. -/
def updEng (s : State) (e : Eng) (f : EngSt → EngSt) : State := { s with engs := upd s.engs (engIx e) f }

/-- A Slip port's state. -/
def slipSt (s : State) : Port → Slip
  | .slp0 => s.slip0
  | .slp1 => s.slip1

/-- A Slip port's state changed. -/
def updSlip (s : State) (p : Port) (f : Slip → Slip) : State :=
  match p with
  | .slp0 => { s with slip0 := f s.slip0 }
  | .slp1 => { s with slip1 := f s.slip1 }

/-- The power domain of a port: PD18, and PD22 for SLP1 (01 R32, 07 R316). -/
def portPd : Port → Nat
  | .slp0 => 18
  | .slp1 => 22

/-- The port exists on this part (06 R238). -/
def portPresent (s : State) : Port → Bool
  | .slp0 => true
  | .slp1 => tilePresent s .io

/-- The port's interrupt source (06 R242). -/
def portInt : Port → Nat
  | .slp0 => 8
  | .slp1 => 9

/-- A tile's state changed. -/
def updTile (s : State) (t : Tile) (f : TileSt → TileSt) : State := { s with tiles := upd s.tiles (tileIx t) f }

/-- A channel's state. -/
def chanSt (s : State) (n : Nat) : Chan := nth s.sns.chans n .reset

/-- A channel's state changed. -/
def updChan (s : State) (n : Nat) (f : Chan → Chan) : State := { s with sns := { s.sns with chans := upd s.sns.chans n f } }

/-- The entry of the ledger. -/
def entrySt (s : State) (i : Nat) : Entry := nth s.ldg.entries i .free

/-- An entry changed. -/
def updEntry (s : State) (i : Nat) (f : Entry → Entry) : State := { s with ldg := { s.ldg with entries := upd s.ldg.entries i f } }

/-- A queue's descriptor. -/
def qd (s : State) (q : Nat) : QDesc := look s.qm.qdt q .unused

/-- The words of a descriptor (11 R414). -/
def QDesc.word (d : QDesc) (k : Nat) : Word :=
  match k with
  | 0 => mkWord [(17, 15, d.base), (0, 17, d.wp)]
  | 1 => mkWord [(28, 4, d.ldepth), (24, 4, d.isize), (21, 3, d.cls), (19, 2, d.scope), (18, 1, b2n d.ovf), (0, 17, d.pp)]
  | 2 => mkWord [(30, 2, d.rank), (26, 4, d.cth), (18, 8, d.rbw), (0, 17, d.rp)]
  | _ => mkWord [(17, 2, d.tlink), (0, 17, d.fp)]

/-- Address of word k of a descriptor in the QDT (11 R414, 01 R39). -/
def qdtAddr (q k : Nat) : Nat := 0x30000000 + 16 * q + 4 * k

/-- A queue's descriptor set; each word of the QDT that changes is written whole, so its error mark goes (05 R711). -/
def setQd (s : State) (q : Nat) (d : QDesc) : State :=
  { s with qm := { s.qm with qdt := put .unused s.qm.qdt q d },
           ecc := s.ecc.filter (fun w => !([0, 1, 2, 3].any (fun k => w == qdtAddr q k && d.word k != (qd s q).word k))) }

/-- A sync counter. -/
def scSt (s : State) (n : Nat) : Sc := look s.scs n .unused

/-- A sync counter set. -/
def setSc (s : State) (n : Nat) (c : Sc) : State := { s with scs := put .unused s.scs n c }

/-- A model's slot. -/
def slotSt (s : State) (m : Nat) (b : Bool) : Slot := nth s.cap.slots (2 * m + b2n b) .empty

/-- A model's slot changed. -/
def updSlot (s : State) (m : Nat) (b : Bool) (f : Slot → Slot) : State :=
  { s with cap := { s.cap with slots := upd s.cap.slots (2 * m + b2n b) f } }

end Sys2Proof.Machine
end

