-- ==== Sys2Proof/Machine/Stamp.lean ====
section
/-! DEFINITION. Device time: the tick length, the advance at a slow edge, the offset and the quality of a stamp, the error bound
(05 R193 to R206). -/

namespace Sys2Proof.Machine

open Sys2Proof

/-! ### Changes of one unit -/

/-- The control port's registers changed. -/
def updCp (s : State) (f : Cp → Cp) : State := { s with cp := f s.cp }

/-- The power sequencer changed. -/
def updPwr (s : State) (f : Pwr → Pwr) : State := { s with pwr := f s.pwr }

/-- The clocks changed. -/
def updClk (s : State) (f : Clk → Clk) : State := { s with clk := f s.clk }

/-- The timebase changed. -/
def updTim (s : State) (f : Tim → Tim) : State := { s with tim := f s.tim }

/-- Hardpan changed. -/
def updHp (s : State) (f : Hp → Hp) : State := { s with hp := f s.hp }

/-- The sensor front end changed. -/
def updSns (s : State) (f : Sns → Sns) : State := { s with sns := f s.sns }

/-- The classifier engine changed. -/
def updSce (s : State) (f : Sce → Sce) : State := { s with sce := f s.sce }

/-- The sediment changed. -/
def updSed (s : State) (f : Sed → Sed) : State := { s with sed := f s.sed }

/-- The queue manager changed. -/
def updQm (s : State) (f : Qm → Qm) : State := { s with qm := f s.qm }

/-- The ledger changed. -/
def updLdg (s : State) (f : Ldg → Ldg) : State := { s with ldg := f s.ldg }

/-- The loader changed. -/
def updCap (s : State) (f : Cap → Cap) : State := { s with cap := f s.cap }

/-- The life-cycle unit changed. -/
def updLc (s : State) (f : Lc → Lc) : State := { s with lc := f s.lc }

/-- The window changed. -/
def updWin (s : State) (f : Win → Win) : State := { s with win := f s.win }

/-! ### Ticks -/

/-- The length of a slow tick (05 R193): XT32, LRC as measured (in 2^-16 of a unit), LRC at 32.768 units. -/
inductive Tick where
  | xt
  | measured (k : Nat)
  | nominal
  deriving DecidableEq, Repr

/-- The length of the present tick: a measurement applies while XT24 runs and passes its monitor. -/
def tickNow (s : State) : Tick :=
  if !s.clk.slowLrc then .xt
  else match s.clk.meas with
    | some k => if s.clk.xt24Run then .measured k else .nominal
    | none => .nominal

/-- The whole units a full tick adds, and the fraction carried (05 R193: "No fraction is ever lost"). -/
def Tick.full (t : Tick) (f : Frac) : Nat × Frac :=
  match t with
  | .xt => (32, f)
  | .measured k => ((f.m + 2 * k) / 2 ^ 17, { f with m := (f.m + 2 * k) % 2 ^ 17 })
  | .nominal => (32 + (f.n + 768) / 1000, { f with n := (f.n + 768) % 1000 })

/-- The whole units a half tick adds (05 R204). -/
def Tick.half (t : Tick) (f : Frac) : Nat × Frac :=
  match t with
  | .xt => (16, f)
  | .measured k => ((f.m + k) / 2 ^ 17, { f with m := (f.m + k) % 2 ^ 17 })
  | .nominal => (16 + (f.n + 384) / 1000, { f with n := (f.n + 384) % 1000 })

/-- ⌊L⌋ and ⌊L / 2⌋ (05 R194). -/
def Tick.floor : Tick → Nat
  | .xt => 32
  | .measured k => k / 2 ^ 16
  | .nominal => 32

def Tick.floorHalf : Tick → Nat
  | .xt => 16
  | .measured k => k / 2 ^ 17
  | .nominal => 16

/-- L in units of 1 / 131,072,000: the common measure of the three lengths. -/
def Tick.sub : Tick → Nat
  | .xt => 32 * 131072000
  | .measured k => k * 2000
  | .nominal => 32768 * 131072

/-! ### Stamps -/

/-- I59 is powered (01 R32: PD2). -/
def i59On (s : State) : Bool := pdPowered s 2

/-- The cycles of 96 MHz that one cycle of the clock that times I59 lasts (05 R167, R194): XT24 while it runs, else FIO. -/
def fastUnit (s : State) : Nat := if s.clk.xt24Run then 4 else 1

/-- The offset of a stamp at full rate, at half rate (05 R194). A change of the fast clock within a tick keeps what has been
counted (DESIGN CHOICE, log 2). -/
def offFull (s : State) : Nat := Nat.min ((tickNow s).floor - 1) (s.tim.fastN * 2 ^ 20 / 96000000)

def offHalf (s : State) : Nat := Nat.min ((tickNow s).floorHalf - 1) (s.tim.fastN * 2 ^ 19 / 96000000)

/-- A stamp includes the offset: I59 is powered and a fast clock has run since the last slow edge. -/
def exact (s : State) : Bool := i59On s && s.tim.fastRan

/-- The offset that a stamp taken now adds to the DT of the last slow edge (05 R194, R204). -/
def offset (s : State) : Nat := if exact s then (if s.tim.slew.isSome then offHalf s else offFull s) else 0

/-- Device time now (05 R193, R194, R199). It never decreases (R195): where a clock fails within a tick, so that the offset or the
next tick is shorter than what a stamp has shown, it stays at that. -/
def dtNow (s : State) : Nat := Nat.max s.tim.reached (s.tim.dt + offset s)

/-- The quality of a stamp taken now (05 R197). -/
def qualNow (s : State) : BitVec 2 :=
  if s.tim.uncertain then 0b11 else if s.tim.bridged then 0b10 else if exact s then 0b00 else 0b01

/-- A stamp taken now. -/
def now (s : State) : Stamp := ⟨dtNow s, qualNow s⟩

/-- A stamp has been taken: the next one is no longer the first after an exit from HIBERNATE. -/
def stamped (s : State) : State := updTim s (fun t => { t with bridged := false })

/-- A fast clock runs. -/
def fastRuns (s : State) : Bool := s.clk.xt24Run || s.clk.fioRun

/-- FIO is requested: it runs from now on (05 R170). In OFF and in power-on reset nothing requests it. -/
def askFio (s : State) : State :=
  updTim (updClk s (fun c => { c with fioRun := true })) (fun t => { t with fastRan := true })

/-- The instant of an event within the slow tick: fast cycles have passed since the last one, as many as the free
value says (DESIGN CHOICE, log 2). -/
def instant (s : State) : State :=
  if fastRuns s && i59On s then
    let t := updTim s (fun t =>
      { t with fastN := t.fastN + fastUnit s * Config.fastCycles t.stampK, stampK := t.stampK + 1, fastRan := true })
    updTim t (fun m => { m with reached := dtNow t })
  else s

/-! ### Slow edges -/

/-- The rate at which the error bound grows, in ppm (05 R201). -/
def errPpm (s : State) : Nat :=
  match tickNow s with
  | .xt => bits s.tim.cfg 11 0
  | .measured _ => bits s.tim.cfg 27 16
  | .nominal => 31000

/-- The bound after a growth; at the top it stays unknown (05 R200). -/
def errAdd (e g : Nat) : Nat := if errTop ≤ e then errTop else Nat.min errTop (e + g)

/-- Device time after a slow edge of length t (05 R193). During a slew it gains half the length, and the slew ends at the first edge
at which that would not pass the true time, counted at full rate, any more: there it takes the true time (R204). -/
def Tim.edge (m : Tim) (t : Tick) : Tim :=
  match m.slew with
  | none =>
    let r := t.full m.frac
    { m with dt := m.dt + r.1, frac := r.2 }
  | some sl =>
    let tr := t.full sl.frac
    let h := t.half m.frac
    let true' : Int := sl.true_ + tr.1
    if ((m.dt + h.1 : Nat) : Int) ≤ true' then { m with dt := true'.toNat, frac := tr.2, slew := none }
    else { m with dt := m.dt + h.1, frac := h.2, slew := some ⟨true', tr.2⟩ }

/-- A slow edge: DT and the tick counter advance, the error bound grows (in HIBERNATE the growth is kept until X2,
R201), the count of fast cycles restarts. -/
def slowEdge (s : State) (t : Tick) (ppm : Nat) : State :=
  let g := t.sub * ppm
  let m := s.tim.edge t
  let m := if i59On s then { m with err := errAdd m.err g } else { m with errHib := m.errHib + g }
  { s with tim := { m with ticks := (m.ticks + 1) % 2 ^ 40, fastN := 0, fastRan := fastRuns s } }

/-- The part of a slew that is still to be made good (05 R202): what device time is ahead of the true time, both now. -/
def slewDue (s : State) : Nat :=
  match s.tim.slew with
  | some sl => ((dtNow s : Int) - (sl.true_ + ((if exact s then offFull s else 0 : Nat) : Int))).toNat
  | none => 0

/-- `TIM_ERRBOUND` (05 R200 to R202). -/
def errBound (s : State) : Nat := Nat.min 0xFFFFFFFF (cdiv s.tim.err errScale + slewDue s)

/-- `TIM_ALARM`. -/
def alarmTime (s : State) : Nat := s.tim.alarmHi.toNat * 2 ^ 32 + s.tim.alarmLo.toNat

end Sys2Proof.Machine
end

