-- ==== Sys2Proof/Machine/Flags.lean ====
section
/-! DEFINITION. Flag computations: the rules of Hardpan and the level of the halt outputs (09 R355 to R362), the interrupt line and
its sources (06 R239 to R242), ECHO frames (07 R275), `CP_STATUS`. -/

namespace Sys2Proof.Machine

open Sys2Proof

/-! ### Hardpan rules (09 R358 to R361) -/

/-- Words 0 and 1 of rule n. -/
def ruleW0 (h : Hp) (n : Nat) : Word := nth h.rules (2 * n) 0

def ruleW1 (h : Hp) (n : Nat) : Word := nth h.rules (2 * n + 1) 0

def ruleEn (h : Hp) (n : Nat) : Bool := bit (ruleW0 h n) 31
def ruleWarn (h : Hp) (n : Nat) : Bool := bit (ruleW0 h n) 30
def ruleIsSce (h : Hp) (n : Nat) : Bool := bit (ruleW0 h n) 29
def ruleCmp (h : Hp) (n : Nat) : Nat := bits (ruleW0 h n) 28 27
def ruleGroup (h : Hp) (n : Nat) : Nat := bits (ruleW0 h n) 20 16
def ruleDb (h : Hp) (n : Nat) : Nat := bits (ruleW0 h n) 15 12
def ruleSrc (h : Hp) (n : Nat) : Nat := bits (ruleW0 h n) 5 0

/-- The rule carries a reserved encoding: CMP 0b11, a reserved channel, or a reserved field that is not 0. -/
def ruleBad (h : Hp) (n : Nat) : Bool :=
  ruleCmp h n == 3 || (!ruleIsSce h n && decide (16 ≤ ruleSrc h n)) ||
    bits (ruleW0 h n) 26 21 != 0 || bits (ruleW0 h n) 11 6 != 0

/-- The comparator of R359 on a signed value. A rule with a reserved encoding never meets it. -/
def ruleMet (h : Hp) (n : Nat) (v : Int) : Bool :=
  let hi := asSigned 16 (bits (ruleW1 h n) 31 16)
  let lo := asSigned 16 (bits (ruleW1 h n) 15 0)
  if ruleBad h n then false
  else match ruleCmp h n with
    | 0 => decide (hi < v)
    | 1 => decide (v < lo)
    | 2 => decide (v < lo) || decide (hi < v)
    | _ => false

/-- The rule numbers. -/
def ruleNums : List Nat := List.range 32

/-- An enabled rule is tripped while c = DB + 1 (R360). -/
def ruleTripped (h : Hp) (n : Nat) : Bool := ruleEn h n && nth h.c n 0 == ruleDb h n + 1

/-- The enabled rules of group g, in rising order. -/
def groupRules (h : Hp) (g : Nat) : List Nat := ruleNums.filter (fun n => ruleEn h n && ruleGroup h n == g)

/-- Group g is tripped (R361). -/
def groupTripped (h : Hp) (g : Nat) : Bool :=
  let ms := groupRules h g
  !ms.isEmpty && (ms.all (ruleTripped h) || ms.any (fun n => !ruleWarn h n && ruleTripped h n && nth h.standing n false))

/-- A group with an enabled HALT rule acts as a HALT group (R362). -/
def groupHalt (h : Hp) (g : Nat) : Bool := (groupRules h g).any (fun n => !ruleWarn h n)

/-- Some HALT group is tripped. -/
def haltTripped (h : Hp) : Bool := ruleNums.any (fun g => groupHalt h g && groupTripped h g)

/-! ### Halt outputs (09 R355, R357) -/

/-- I2 runs: PD1 is on, HRC has not failed, power-on reset is over. -/
def i2Runs (s : State) : Bool := pdOn s 1 && !s.clk.hrcFail && !s.boot.por

/-- The outputs are at the run level: HALT_A_N high, HALT_B low. In manufacturing test mode they stay at halt (02 R82). -/
def outputsRun (s : State) : Bool :=
  i2Runs s && !s.boot.mfg && s.hp.armed && s.hp.released && !s.hp.hold && !haltTripped s.hp

/-- Levels driven on HALT_A_N and HALT_B. -/
def haltA (s : State) : Bool := outputsRun s

def haltB (s : State) : Bool := !outputsRun s

/-- Levels on HP_FB_A and HP_FB_B: those of the nets, which follow the outputs but in a mismatch (09 R378, R379). -/
def fbA (s : State) : Bool := if s.hp.misA then s.hp.fbA else haltA s

def fbB (s : State) : Bool := if s.hp.misB then s.hp.fbB else haltB s

/-- Armed, as the registers show it: 0 after an HRC failure (09 R380). -/
def armedBit (s : State) : Bool := s.hp.armed && !s.clk.hrcFail

/-! ### `CP_STATUS` (06 R257) -/

/-- `CP_STATUS.SUP_RDY`: C5 reached, the supervisor not in reset, admission open. -/
def supReady (s : State) : Bool := s.pwr.supRdy && s.pwr.admission && !(islSt s 21).held

/-- The word at index 0x02. -/
def cpStatus (s : State) : Word :=
  mkWord [(3, 1, b2n (!s.flt.recs.isEmpty)), (2, 1, b2n (armedBit s)), (1, 1, b2n (!outputsRun s)), (0, 1, b2n (supReady s))]

/-! ### Interrupt line (06 R239) -/

/-- `INT_PEND`. -/
def intPend (s : State) : BitVec 13 := s.cp.intStatus &&& s.cp.intEn

/-- A warm reset is under way. -/
def inWarm (s : State) : Bool :=
  match s.pwr.seq with
  | .warm _ => true
  | _ => false

/-- OFF has been reached. -/
def inOff (s : State) : Bool := s.pwr.st == .off && s.pwr.seq == .stable

/-- CP_IRQ_N is driven low. -/
def irqLow (s : State) : Bool := intPend s != 0 && !s.boot.por && !inWarm s && !inOff s && !s.boot.mfg

/-- Frames that wait on VC0 at most: the manual gives VC0 no size (PRESUMED, log 12). -/
def vc0Max : Nat := 16

/-- The ECHO frame that mirrors the present interrupt status (07 R275). -/
def echoFrame (s : State) : SlipFrame :=
  { typ := 3, vc := 0, qid := 0, len := 8, seq := 0, job := 0, qual := 0, failed := false, tstamp := 0, rsvd := 0, rsvd2 := 0, crc := 0,
    payload := leBytes 4 s.cp.intStatus.toNat ++ leBytes 4 (cpStatus s).toNat }

/-- A frame put on VC0; when it is full the oldest ECHO is dropped (07 R318). -/
def Slip.putVc0 (p : Slip) (f : SlipFrame) : Slip :=
  let q := if p.vc0.length < vc0Max then p.vc0 else dropFirst (fun x => x.typ == 3) p.vc0
  { p with vc0 := q ++ [f] }

/-- The port, if powered and enabled with ECHO = 1, queues an ECHO. -/
def echoOn (s : State) (p : Port) : State :=
  if bit (slipSt s p).ctrl 3 && bit (slipSt s p).ctrl 0 && pdPowered s (portPd p) then
    updSlip s p (fun x => x.putVc0 (echoFrame s))
  else s

/-- The interrupt registers take new values; a change of `INT_PEND` is echoed (07 R275). -/
def setInt (s : State) (status en : BitVec 13) : State :=
  let t := updCp s (fun c => { c with intStatus := status, intEn := en })
  if intPend t == intPend s then t else echoOn (echoOn t .slp0) .slp1

/-- An interrupt source fires: its `INT_STATUS` bit is set (06 R242). -/
def raiseInt (s : State) (k : Nat) : State := setInt s (s.cp.intStatus ||| BitVec.ofNat 13 (2 ^ k)) s.cp.intEn

/-- Interrupt source numbers (06 R242). -/
def intPwr : Nat := 0
def intHandover : Nat := 1
def intFault : Nat := 2
def intHardpan : Nat := 3
def intSilt : Nat := 4
def intAlarm : Nat := 5
def intCommit : Nat := 6
def intSinkStall : Nat := 7
def intCperr : Nat := 10
def intSupReady : Nat := 11
def intCapsule : Nat := 12

/-- A change after which `SUP_RDY` may have risen: its rise is an interrupt source (06 R242). -/
def noteReady (s t : State) : State := if !supReady s && supReady t then raiseInt t intSupReady else t

end Sys2Proof.Machine
end

