-- ==== Sys2Proof/Machine/Ops.lean ====
section
/-! DEFINITION. Shared operations: wake events and the start of an exit or a reversal (04 R134 to R145), fault records
(14 R587, R588), write frames of the control port with their checks and results (06 R231 to R238, 16 R648). -/

namespace Sys2Proof.Machine

open Sys2Proof

/-! ### PMIC scripts and PWR_GOOD (04 R161, R162) -/

/-- Entry i of script slot k. -/
def scriptWord (s : State) (k i : Nat) : Word := nth s.pwr.scripts (8 * k + i) 0

/-- The script is empty: its first entry's `ADDR` is 0. -/
def scriptEmpty (s : State) (k : Nat) : Bool := bits (scriptWord s k 0) 31 25 == 0

/-- A script starts; an empty one has nothing to do. -/
def startScript (s : State) (k : Nat) : State :=
  updPwr s (fun p => { p with script := if scriptEmpty s k then none else some ⟨k, 0, false⟩ })

/-- What follows the wait for PWR_GOOD: in the reversal of AP5 the OP script of `CURRENT` when that is above OP0 (04 R145). -/
def afterPg (s : State) : State :=
  match s.pwr.seq with
  | .reverse 5 _ _ _ => if s.pwr.opCur = 0 then s else startScript s (2 + s.pwr.opCur)
  | _ => s

/-- A wait for PWR_GOOD begins; it ends at once when PWR_GOOD is high. -/
def waitPg (s : State) : State :=
  let t := updPwr s (fun p => { p with awaitPg := !p.pwrGood, pgIgnored := false })
  if s.pwr.pwrGood then afterPg t else t

/-- WATCH_UP runs, then PWR_GOOD is awaited. -/
def startWatchUp (s : State) : State := if scriptEmpty s 1 then waitPg s else startScript s 1

/-! ### Exits and reversals -/

/-- An exit to RUN begins with X1, from IDLE with X3 (04 R141). -/
def beginExit (s : State) : State :=
  let t := updPwr s (fun p => { p with tgt := .run, seq := .exit 0 none 1, repeatX2 := false })
  match s.pwr.st with
  | .hibernate => waitPg (updPwr t (fun p => { p with pwrReq := true }))
  | .watch => startWatchUp t
  | _ => t

/-- The first step that an entry resumed at checkpoint c performs (04 R147). -/
def firstStep : Option Nat → Nat
  | none => 1
  | some c => if c = 1 then 5 else if c = 2 then 4 else if c = 3 then 3 else 2

/-- The entry is turned back at abort point `ap` (04 R145); an entry abandoned on a wake is counted (R149). The undo
work of AP5 starts with WATCH_UP, or with the wait for PWR_GOOD when no script began. -/
def beginReverse (s : State) (ap : Nat) (cut : Cut) (resume : Option Nat) : State :=
  let t := updPwr s (fun p =>
    { p with seq := .reverse ap (firstStep resume) cut resume, script := none, woken := false,
             abortCnt := if cut = .wake then satInc 0xFFFF p.abortCnt else p.abortCnt })
  if ap = 5 then (if s.pwr.scriptRan then startWatchUp t else waitPg t) else t

/-! ### Wake events (04 R134 to R140) -/

/-- Wake source numbers. -/
def wakeHost : Nat := 0
def wakeAlarm : Nat := 1
def wakeSilt : Nat := 2
def wakeHardpan : Nat := 3
def wakeFault : Nat := 4
def wakeSlip : Nat := 5

/-- The source can fire in the stable state below RUN (04 R134); `selfTest` marks a Hardpan self-test failure. -/
def canFire (st : PState) (k : Nat) (selfTest : Bool) : Bool :=
  match st with
  | .run => false
  | .idle => true
  | .watch => k != wakeSlip
  | .hibernate => k == wakeHost || k == wakeAlarm || k == wakeFault || (k == wakeHardpan && selfTest)
  | .off => false

/-- The source is enabled; HOST always is. -/
def wakeEnabled (s : State) (k : Nat) : Bool := k == wakeHost || s.pwr.wakeEn.getLsbD k

/-- A wake event is pending (04 R136). -/
def wakePending (s : State) : Bool := (s.pwr.wakeSrc &&& (s.pwr.wakeEn ||| 1)) != 0

/-- The source's bit is set, and the power-transition interrupt source (04 R140). -/
def recordWake (s : State) (k : Nat) : State :=
  raiseInt (updPwr s (fun p => { p with wakeSrc := p.wakeSrc ||| BitVec.ofNat 6 (2 ^ k) })) intPwr

/-- A life-cycle transition is between T1 and the start of T4 (16 R637). -/
def inTransition (s : State) : Bool :=
  match s.lc.op with
  | .wiping _ _ => true
  | .blowing _ => true
  | .warm _ => true
  | _ => false

/-- A wake source fires: it starts an exit from a stable state, abandons an entry before AP5 (during E2 at once, from
AP1; during another step when that step ends), and is only recorded otherwise (04 R135 to R138, R166; 16 R655). In stable RUN, which the table of R134 does not name, nothing is recorded (DESIGN CHOICE, log 88). -/
def fireWake (s : State) (k : Nat) (selfTest : Bool) : State :=
  match s.pwr.seq with
  | .stable =>
    if inTransition s then recordWake s k
    else if canFire s.pwr.st k selfTest then
      (if wakeEnabled s k then beginExit (recordWake s k) else recordWake s k)
    else s
  | .entry step qw cut resume =>
    let t := recordWake s k
    if !wakeEnabled s k then t
    else if 6 ≤ step then updPwr t (fun p => { p with woken := true })
    else if step = 2 then beginReverse t 1 .wake resume
    else match cut with
      | .none => updPwr t (fun p => { p with seq := .entry step qw .wake resume })
      | _ => t
  | .reverse _ _ _ _ =>
    let t := recordWake s k
    if wakeEnabled s k then updPwr t (fun p => { p with woken := true }) else t
  | _ => recordWake s k

/-! ### Fault records (14 R587, R588) -/

/-- A record is stored, or discarded and counted when 32 are unread. A stored one is an interrupt source and a wake source. -/
def storeRec (s : State) (r : FltRec) : State :=
  let s := stamped s
  if s.flt.recs.length < 32 then
    fireWake (raiseInt { s with flt := { s.flt with recs := s.flt.recs ++ [r], total := satInc 0xFFFF s.flt.total } } intFault)
      wakeFault false
  else { s with flt := { s.flt with lost := satInc 0xFFFF s.flt.lost, lcode := r.code } }

/-- The record of a fault that belongs to no job. -/
def plainRec (s : State) (code cas : Byte) (isl eng : Nat) : FltRec :=
  { job := 0, code, cas, offset := 0, isl := BitVec.ofNat 6 isl, eng := BitVec.ofNat 4 eng, att := 0, jv := false,
    qv := false, qid := 0, stamp := now s }

/-- A fault outside a job is recorded. -/
def deviceFault (s : State) (code cas : Byte) (isl eng : Nat) : State := storeRec s (plainRec s code cas isl eng)

/-- The words of a record (14 R587). -/
def recWord (r : FltRec) (k : Nat) : Word :=
  match k with
  | 0 => mkWord [(16, 16, r.job.toNat), (8, 8, r.code.toNat), (0, 8, r.cas.toNat)]
  | 1 => r.offset
  | 2 => mkWord [(26, 6, r.isl.toNat), (22, 4, r.eng.toNat), (18, 4, r.att.toNat), (17, 1, b2n r.jv), (16, 1, b2n r.qv),
      (0, 14, r.qid.toNat)]
  | _ => mkWord [(30, 2, r.stamp.qual.toNat), (0, 30, r.stamp.dt)]

/-! ### Reach of a domain (01 R43 to R45, R63, R191) -/

/-- The state an entry under way leads to, once AP1 has been passed and until the entry ends or is reversed. -/
def pastAp1 (s : State) : Option PState :=
  match s.pwr.seq with
  | .entry step _ _ _ => if 2 ≤ step then some s.pwr.tgt else none
  | .reverse _ _ _ _ => some s.pwr.tgt
  | _ => none

/-- The domain is one that the target of an entry past AP1 removes or retains. -/
def removedByEntry (s : State) (n : Nat) : Bool :=
  match pastAp1 s with
  | some tgt => levelIn s tgt n == .off || levelIn s tgt n == .ret
  | none => false

/-- PD17 is in retention and served all the same: stable WATCH, or an exit from it (01 R45). -/
def retServed (s : State) (n : Nat) : Bool :=
  n == 17 && pdLevel s 17 == .ret && s.pwr.st == .watch &&
    (match s.pwr.seq with
     | .stable => true
     | .exit _ _ _ => true
     | .warm _ => true
     | _ => false)

/-- An access to memory or registers of the domain gets the domain-off status. -/
def pdDark (s : State) (n : Nat) : Bool := !pdPowered s n && !retServed s n

/-! ### Status codes (06 R215) -/

def stOk : Nat := 0
def stAddr : Nat := 1
def stOff : Nat := 2
def stPeer : Nat := 3
def stBusy : Nat := 4
def stDenied : Nat := 5
def stEcc : Nat := 6

/-! ### Write frames of the control port -/

/-- A warm reset keeps I57 from serving frames: none is responded to or counted during one (06 R212, R258; DEDUCED, log 13). -/
def i57Held (s : State) : Bool :=
  match s.pwr.seq with
  | .warm _ => true
  | _ => false

/-- The control port serves frames (06 R212; in manufacturing test mode only reads of `CP_ID`, 02 R82). -/
def cpServes (s : State) : Bool := !s.boot.por && !s.boot.mfg && !inOff s && !i57Held s

/-- The I2C target address that STRAP_ADDR selects (02 R86, 06 R223). -/
def i2cAddr (s : State) : BitVec 7 := if s.boot.strapAddr then 0x5B else 0x5A

/-- The frame is this port's: in I2C mode it is sent to the port's address. -/
def addressed (s : State) (a : BitVec 7) : Bool := !s.boot.strapCp || a == i2cAddr s

/-- The CRC byte of a write frame: over CMD, IDX, D3, D2, D1 and D0 (06 R230). -/
def writeCrc (seq : BitVec 4) (idx : Byte) (v : Word) : Byte := crc8 ([cpCmdByte true seq, idx] ++ beBytes v)

/-- The CRC byte received is that of the frame. -/
def frGood (f : Fr) (idx : Byte) (v : Word) : Bool := f.crc == writeCrc f.seq idx v

/-- A frame has been discarded and counted (06 R234). -/
def discarded (s : State) : State := raiseInt (updCp s (fun c => { c with disc := true })) intCperr

/-- The result of a completed write frame (06 R257 `CP_LINK`). -/
def linkWrite (s : State) (idx : Byte) (st : Nat) (seq : BitVec 4) : State :=
  updCp s (fun c => { c with wIdx := idx, wRes := BitVec.ofNat 3 st, wSeq := seq })

/-- The index holds a register (06 R256). -/
def idxMapped (i : Nat) : Bool :=
  i ≤ 0x06 || (0x10 ≤ i && i ≤ 0x18) || (0x20 ≤ i && i ≤ 0x23) || (0x30 ≤ i && i ≤ 0x35) || i == 0x40 || i == 0x41 ||
    (0x50 ≤ i && i ≤ 0x57) || (0x60 ≤ i && i ≤ 0x65) || (0x70 ≤ i && i ≤ 0x7B) || (0x80 ≤ i && i ≤ 0x87) ||
    (0x90 ≤ i && i ≤ 0x96) || (0xA0 ≤ i && i ≤ 0xA3) || (0xA8 ≤ i && i ≤ 0xAB) || (0xB0 ≤ i && i ≤ 0xB3) ||
    i == 0xF0 || i == 0xF1

/-- The register belongs to a port or tile that the assembly lacks (06 R238). A tile that failed is of the assembly: its
status registers answer (17 R669) (DEDUCED, log 73). -/
def idxAbsent (s : State) (i : Nat) : Bool :=
  ((0xA8 ≤ i && i ≤ 0xAB) && !tileFused s .io) || (i == 0xB1 && !tileFused s .t0) || (i == 0xB2 && !tileFused s .t1) ||
    (i == 0xB3 && !tileFused s .io)

/-- The index belongs to a group that RETIRED denies whole (16 R648: "Other control-port groups"). No row permits
reads of `DBG_CTRL` in RETIRED either: DEDUCED (log 43). -/
def idxOther (i : Nat) : Bool :=
  i == 0x40 || i == 0x41 || (0x60 ≤ i && i ≤ 0x65) || (0x82 ≤ i && i ≤ 0x87) || (0xA0 ≤ i && i ≤ 0xAB) ||
    (0xB0 ≤ i && i ≤ 0xB3) || i == 0xF0 || i == 0xF1

/-- A write of the index is denied whatever its value (16 R648): in SEALED `DBG_CTRL`; in RETIRED also the life-cycle
commands and the other groups (DEDUCED, log 61). -/
def writeDenied (s : State) (i : Nat) : Bool :=
  match life s with
  | .blank => false
  | .develop => false
  | .sealed => i == 0x87
  | .retired => i == 0x80 || i == 0x81 || idxOther i

/-- The domain of the block that owns a direct register, where that is not PD0 (06 R237). Which island serves the time registers 0x70 to
0x7B is not said; the model takes them for registers of PD0, written in HIBERNATE too (DESIGN CHOICE, log 96). -/
def idxPd (i : Nat) : Option Nat :=
  if 0x50 ≤ i ∧ i ≤ 0x57 then some 1
  else if i = 0x60 ∨ i = 0x61 then some 2
  else if i = 0x81 then some 19
  else if 0x82 ≤ i ∧ i ≤ 0x86 then some 5
  else if i = 0x87 then some 23
  else if 0xA0 ≤ i ∧ i ≤ 0xA3 then some 18
  else if 0xA8 ≤ i ∧ i ≤ 0xAB then some 22
  else if i = 0xB1 then some 20
  else if i = 0xB2 then some 21
  else if i = 0xB3 then some 22
  else none

/-- The block's domain is off or in retention. -/
def idxDark (s : State) (i : Nat) : Bool :=
  match idxPd i with
  | some n => !pdPowered s n
  | none => false

/-- The status that turns a write away before its register sees it. -/
def writeBar (s : State) (i : Nat) : Option Nat :=
  if !idxMapped i || idxAbsent s i then some stAddr
  else if writeDenied s i then some stDenied
  else if idxDark s i then some stOff
  else none

/-- What a register does with a written value: the new state and the frame status. -/
abbrev RegAct := State → State × Nat

/-- A write frame with index `idx` and data `v` (06 R231): not served, discarded on a CRC mismatch, turned away, or given to the
register; its result stands in `CP_LINK`. -/
def wframe (f : Fr) (idx : Byte) (v : Word) (act : RegAct) (s : State) : State :=
  if !cpServes s || !addressed s f.addr then s
  else
    let s := askFio s
    if !frGood f idx v then discarded (updCp s (fun c => { c with errCrc := satInc 0xFFFF c.errCrc }))
    else match writeBar s idx.toNat with
      | some st => linkWrite s idx st f.seq
      | none =>
        let r := act s
        linkWrite r.1 idx r.2 f.seq

/-- A register that always answers OK. -/
def okAct (f : State → State) : RegAct := fun s => (f s, stOk)

end Sys2Proof.Machine
end

