-- ==== Sys2Proof/Machine/Hardpan.lean ====
section
/-! DEFINITION. Hardpan (chapter 09): debounce counters, group trips, arming, release, the lock, self-test, the feedback monitor,
and the meanings of the Hardpan commands. -/

namespace Sys2Proof.Machine

open Sys2Proof

/-! ### Debounce (R360, R361) -/

/-- What an input brings to the rules that name its source. -/
inductive HpInput where
  | value (v : Int)
  | fault
  | stale
  | silence
  deriving DecidableEq, Repr

/-- The new counter and standing of rule n. -/
def debounce (h : Hp) (n : Nat) (i : HpInput) : Nat × Bool :=
  let top := ruleDb h n + 1
  let c := nth h.c n 0
  let up := Nat.min (c + 1) top
  match i with
  | .value v => if ruleMet h n v then (up, false) else (0, false)
  | .fault => if ruleWarn h n then (c, nth h.standing n false) else (up, up == top)
  | .stale => if ruleWarn h n then (0, false) else (top, true)
  | .silence => if ruleWarn h n then (0, false) else (top, true)

/-- Rule n takes a counter and a standing. -/
def Hp.setC (h : Hp) (n : Nat) (r : Nat × Bool) : Hp :=
  { h with c := upd h.c n (fun _ => r.1), standing := upd h.standing n (fun _ => r.2) }

/-- The input stage: every rule that a test selects takes the input. -/
def hpStage (h : Hp) (sel : Nat → Bool) (i : Nat → HpInput) : Hp :=
  ruleNums.foldl (fun g n => if sel n then g.setC n (debounce g n (i n)) else g) h

/-- The counter of a rule that has just been written or loaded (R360). -/
def freshRule (s : State) (h : Hp) (n : Nat) : Hp :=
  let stale := if ruleIsSce h n then h.silent
    else ruleSrc h n < 16 && (chanSt s (ruleSrc h n)).verdict == 0b10
  if !ruleWarn h n && stale then h.setC n (ruleDb h n + 1, true) else h.setC n (0, false)

/-! ### Scan (R362) -/

/-- Group g trips: a HALT group clears RELEASED, a WARN group sets WARN; the trip is an interrupt, and when no earlier
trip is unacknowledged it records FIRST and is a wake source. -/
def tripGroup (s : State) (g : Nat) : State :=
  let first := (groupRules s.hp g).headD 0
  let t := updHp s (fun h =>
    { h with grp := upd h.grp g (fun _ => true), released := h.released && !groupHalt s.hp g,
             warn := h.warn || !groupHalt s.hp g, first := if h.ackd then first else h.first, ackd := false })
  let t := raiseInt t intHardpan
  if s.hp.ackd then fireWake t wakeHardpan false else t

/-- One group of the scan. -/
def scanGroup (s : State) (g : Nat) : State :=
  let was := nth s.hp.grp g false
  if groupTripped s.hp g then (if was then s else tripGroup s g)
  else if was then updHp s (fun h => { h with grp := upd h.grp g (fun _ => false) }) else s

/-- The scan, while I2 runs. -/
def hpScan (s : State) : State := if i2Runs s then ruleNums.foldl scanGroup s else s

/-! ### Power and wipe of PD1 (R363, R380, R719; 16 R640) -/

/-- The rule words after a power-up: the factory default rules in rules 0 to 3 when STRAP_HPDEF is latched high. -/
def factoryRules (hpdef : Bool) : List Word :=
  if hpdef then [0x88000000, 1, 0x88010001, 1, 0x88020002, 1, 0x88030003, 1] ++ many 56 0 else many 64 0

/-- Both copies of the rule table written (R719), every counter afresh (R360), the rules evaluated at once (R363). -/
def loadRules (s : State) (ws : List Word) : State :=
  let s := updHp s (fun h =>
    { h with rules := ws, shadow := ws.map (fun w => ~~~w), memBad := false, grp := many 32 false })
  hpScan (updHp s (fun h => ruleNums.foldl (fun g n => freshRule s g n) h))

/-- What a power-up of PD1 leaves: rules wiped and loaded, the registers of I2 at their reset values, disarmed. -/
def hpPowerUp (s : State) : State :=
  let s := updHp s (fun h =>
    { h with armed := false, released := false, hold := false, tst := 0x0A, sceTo := 0x64, runst := false, inc := true,
             idx := 0, armSeq := false, arming := false, stRun := false, silent := false, conf := many 64 0, sceIn := false,
             misA := false, misB := false })
  loadRules s (factoryRules s.boot.strapHpdef)

/-- PD1 goes off: rule memory is lost, Hardpan is disarmed, the registers keep what they held (R380). -/
def hpPowerOff (s : State) : State :=
  updHp s (fun h =>
    { h with rules := many 64 0, shadow := many 64 0xFFFFFFFF, memBad := false, c := many 32 0, standing := many 32 false,
             grp := many 32 false, armed := false, released := false, armSeq := false, arming := false, stRun := false,
             sceIn := false, misA := false, misB := false })

/-- The wipe of a life-cycle transition disarms Hardpan (16 R640). -/
def hpWipe (s : State) : State :=
  updHp s (fun h =>
    { h with rules := many 64 0, shadow := many 64 0xFFFFFFFF, memBad := false, c := many 32 0, standing := many 32 false,
             grp := many 32 false, armed := false, released := false, hold := false, armSeq := false, arming := false })

/-! ### Keys (R364 to R366) -/

/-- Key results (R380 `KCAUSE`). -/
def kOk : Nat := 0
def kNoHalt : Nat := 1
def kMixed : Nat := 2
def kBadRule : Nat := 3
def kSelftest : Nat := 4
def kNotArmed : Nat := 5
def kTripped : Nat := 6
def kBlocked : Nat := 7
def kSequence : Nat := 8
def kSealed : Nat := 9
def kAlreadyArmed : Nat := 10

/-- A key is refused. -/
def refuseKey (k : Nat) (s : State) : State := updHp s (fun h => { h with kerr := true, kcause := k })

/-- A self-test starts, unless one runs. -/
def startSelftest (s : State) : State := updHp s (fun h => { h with stRun := true })

/-- Why the second arming key is refused before its self-test. -/
def armCause (s : State) : Option Nat :=
  let h := s.hp
  if armedBit s then some kAlreadyArmed
  else if !ruleNums.any (fun n => ruleEn h n && !ruleWarn h n) then some kNoHalt
  else if ruleNums.any (fun g => groupHalt h g && (groupRules h g).any (ruleWarn h)) then some kMixed
  else if ruleNums.any (fun n => ruleEn h n && ruleBad h n) then some kBadRule
  else none

/-- A feedback mismatch is in progress. -/
def mismatching (h : Hp) : Bool := h.misA || h.misB

/-- Why the release key is refused. -/
def releaseCause (s : State) : Option Nat :=
  let h := s.hp
  if !armedBit s then some kNotArmed
  else if h.hold || mismatching h then some kBlocked
  else if haltTripped h then some kTripped
  else if h.stfail || !h.stLast then some kSelftest
  else none

/-- The second arming key: arming waits for the self-test it starts, or for the one that runs. -/
def armSecond (s : State) : State :=
  match armCause s with
  | some k => refuseKey k s
  | none => startSelftest (updHp s (fun h => { h with arming := true }))

/-- The release key. -/
def release (s : State) : State :=
  match releaseCause s with
  | some k => refuseKey k s
  | none => updHp s (fun h => { h with released := true, kcause := kOk })

/-- Hardpan is disarmed; in stable HIBERNATE its domain goes off (04 R122). -/
def disarm (s : State) : State :=
  let t := updHp s (fun h => { h with armed := false, released := false, kcause := kOk })
  if s.pwr.st == .hibernate && s.pwr.seq == .stable then
    hpPowerOff (updPwr t (fun p => { p with pd := upd p.pd 1 (fun _ => .off) }))
  else t

/-- The disarm key. -/
def disarmKeyed (s : State) : State :=
  if !armedBit s then refuseKey kNotArmed s
  else if life s = .sealed then refuseKey kSealed s
  else disarm s

/-- A write to 0x50 to 0x57 that is not the second arming key abandons an arming sequence (R364). -/
def abandonSeq (s : State) : State :=
  if s.hp.armSeq then refuseKey kSequence (updHp s (fun h => { h with armSeq := false })) else s

/-- A write of `HP_ARM`. In RETIRED the release key alone is served (R369; 16 R649) (DEDUCED, log 65). -/
def hpArmAct (key : Nat) : RegAct := fun s =>
  let retired := life s = .retired
  if key = 0xA5E8 ∧ s.hp.armSeq then
    let t := updHp s (fun h => { h with armSeq := false })
    if retired then (refuseKey kBlocked t, stDenied) else (armSecond t, stOk)
  else
    let opened := s.hp.armSeq
    let t := abandonSeq s
    if key = 0x5A17 then
      if retired then (refuseKey kBlocked t, stDenied)
      else if opened then (t, stOk)
      else (updHp t (fun h => { h with armSeq := true }), stOk)
    else if key = 0xA5E8 then
      if retired then (refuseKey kBlocked t, stDenied) else (refuseKey kSequence t, stOk)
    else if key = 0x3C96 then (release t, stOk)
    else if key = 0xD15A then
      if retired then (refuseKey kBlocked t, stDenied) else (disarmKeyed t, stOk)
    else if retired then (t, stDenied)
    else (refuseKey kSequence t, stOk)

/-! ### Registers (R367 to R370, R380) -/

/-- The frame status of a write that the lock withholds. -/
def lockStatus (s : State) : Nat := if life s = .sealed then stDenied else stAddr

/-- A write of `HP_CTRL`. -/
def hpCtrlAct (v : Word) : RegAct := fun s =>
  let s := abandonSeq s
  let tst := if 1 ≤ bits v 15 8 ∧ bits v 15 8 ≤ 100 then bits v 15 8 else s.hp.tst
  let sto := if 1 ≤ bits v 23 16 then bits v 23 16 else s.hp.sceTo
  let change := decide (tst ≠ s.hp.tst) || decide (sto ≠ s.hp.sceTo)
  let retired := decide (life s = .retired)
  let keep := s.hp.armed || retired
  let t := updHp s (fun h =>
    { h with hold := bit v 0, released := h.released && !bit v 0,
             tst := if keep then h.tst else tst, sceTo := if keep then h.sceTo else sto,
             lockerr := h.lockerr || (change && h.armed), runst := h.runst || bit v 1 })
  let t := if bit v 1 then startSelftest t else t
  (t, if !change || !keep then stOk else if retired then stDenied else lockStatus s)

/-- A write of `HP_RULE_SEL`. -/
def hpSelAct (v : Word) : RegAct := fun s =>
  let s := abandonSeq s
  if life s = .retired then (s, stDenied)
  else (updHp s (fun h => { h with inc := bit v 6, idx := bits v 5 0 }), stOk)

/-- `IDX` advances after an access (DEDUCED, log 65). -/
def hpAdvance (s : State) : State := if s.hp.inc then updHp s (fun h => { h with idx := (h.idx + 1) % 64 }) else s

/-- A write of `HP_RULE_DATA`: rule word and shadow in one step (R719), the counter afresh (R360). -/
def hpDataAct (v : Word) : RegAct := fun s =>
  let s := abandonSeq s
  if life s = .retired then (s, stDenied)
  else if s.hp.armed then (updHp s (fun h => { h with lockerr := true }), lockStatus s)
  else
    let i := s.hp.idx
    let t := updHp s (fun h => { h with rules := upd h.rules i (fun _ => v), shadow := upd h.shadow i (fun _ => ~~~v) })
    let t := updHp t (fun h => freshRule t h (i / 2))
    (hpAdvance (hpScan t), stOk)

/-- A write of `HP_STATUS`: the W1C fields and TRIPACK. -/
def hpStatusAct (v : Word) : RegAct := fun s =>
  let s := abandonSeq s
  (updHp s (fun h =>
    { h with kerr := h.kerr && !bit v 15, lockerr := h.lockerr && !bit v 14, warn := h.warn && !bit v 13,
             ackd := h.ackd || bit v 7 }), stOk)

/-- A write of `HP_ST`. -/
def hpStAct (v : Word) : RegAct := fun s =>
  let s := abandonSeq s
  (updHp s (fun h => { h with stfail := h.stfail && !bit v 7 }), stOk)

/-- A write of a register without writable fields; in RETIRED it is denied (R369). -/
def hpRoAct : RegAct := fun s => (abandonSeq s, if life s = .retired then stDenied else stOk)

/-- Writes of the Hardpan indices. -/
def hpAct (i : Nat) (v : Word) : RegAct :=
  if i = 0x50 then hpStatusAct v
  else if i = 0x51 then hpArmAct (bits v 15 0)
  else if i = 0x52 then hpCtrlAct v
  else if i = 0x53 then hpSelAct v
  else if i = 0x54 then hpDataAct v
  else if i = 0x56 then hpStAct v
  else hpRoAct

/-- `HP_STATUS.HCAUSE`: the highest code that applies. -/
def hpHcause (s : State) : Nat :=
  if s.clk.hrcFail then 7
  else if mismatching s.hp then 6
  else if s.hp.stfail || (s.hp.stRan && !s.hp.stLast) then 5
  else if haltTripped s.hp then 4
  else if s.hp.hold then 3
  else if !armedBit s then 2
  else if !s.hp.released then 1
  else 0

/-- Reads of the Hardpan indices. -/
def hpRead (s : State) (i : Nat) : Word :=
  let h := s.hp
  if i = 0x50 then
    mkWord [(16, 4, h.kcause), (15, 1, b2n h.kerr), (14, 1, b2n h.lockerr), (13, 1, b2n h.warn), (8, 5, h.first),
      (4, 3, hpHcause s), (3, 1, b2n s.boot.strapHpdef), (2, 1, b2n h.released), (1, 1, b2n (armedBit s)),
      (0, 1, b2n (!outputsRun s))]
  else if i = 0x52 then mkWord [(16, 8, h.sceTo), (8, 8, h.tst), (1, 1, b2n h.runst), (0, 1, b2n h.hold)]
  else if i = 0x53 then mkWord [(6, 1, b2n h.inc), (0, 6, h.idx)]
  else if i = 0x54 then nth h.rules h.idx 0
  else if i = 0x55 then mkWord (ruleNums.map (fun n => (n, 1, b2n (ruleTripped h n))))
  else if i = 0x56 then
    mkWord [(16, 16, h.passes), (8, 8, h.fails), (7, 1, b2n h.stfail), (4, 3, h.cause), (3, 1, b2n h.stRun),
      (0, 1, b2n h.stLast)]
  else if i = 0x57 then
    mkWord [(16, 16, h.mismatch), (3, 1, b2n (fbB s)), (2, 1, b2n (fbA s)), (1, 1, b2n (haltB s)), (0, 1, b2n (haltA s))]
  else 0

/-! ### Self-test (R375, R377) -/

/-- The failure cause of a run, 0 when every step passes. -/
def selftestCause (s : State) (o : SelfTestObs) : Nat :=
  let h := s.hp
  if h.memBad || h.rules != h.shadow.map (fun w => ~~~w) then 1
  else if !o.injectOk then 2
  else if !o.pathOk then 3
  else if h.misA && fbA s != haltA s then 4
  else if h.misB && fbB s != haltB s then 5
  else 0

/-- The end of a run that passed: an arming that waits for it succeeds, if the rules still let it (R364); a rule written since the
second key may bar it, with the cause that R366 gives. -/
def selftestPass (s : State) : State :=
  let t := updHp s (fun h =>
    { h with stRun := false, runst := false, stRan := true, stLast := true, passes := satInc 0xFFFF h.passes, arming := false })
  if s.hp.arming then
    match armCause s with
    | some k => refuseKey k t
    | none => updHp t (fun h => { h with armed := true, released := false, kcause := kOk })
  else t

/-- The end of a run that failed; an arming that waits for it is refused, with the first cause that applies (R366). -/
def selftestFail (s : State) (cause : Nat) : State :=
  let t := updHp s (fun h =>
    { h with stRun := false, runst := false, stRan := true, stLast := false, fails := satInc 0xFF h.fails, stfail := true,
             cause, released := false, kerr := h.kerr || h.arming,
             kcause := if h.arming then (armCause s).getD kSelftest else h.kcause, arming := false })
  let t := raiseInt t intHardpan
  let t := fireWake t wakeHardpan true
  deviceFault t 0x20 (BitVec.ofNat 8 cause) 2 0xE

/-! ### Commands -/

/-- HP_INPUT_VERDICT (R360): the oldest update of channel n that is on its way reaches I2. -/
def execHpInputVerdict (n : Fin 16) (s : State) : Host.Outcome State Fault Refusal :=
  match s.sns.toHp.find? (fun u => u.1 == n.val) with
  | none => .next s
  | some (_, v, x) =>
    let t := updSns s (fun f => { f with toHp := dropFirst (fun u => u.1 == n.val) f.toHp })
    if i2Runs s then
      let i : HpInput := if v = 0b11 then .fault else if v = 0b10 then .stale else .value x.toInt
      .next (hpScan (updHp (instant t) (fun h => hpStage h (fun m => !ruleIsSce h m && ruleSrc h m == n.val) (fun _ => i))))
    else .next t

/-- HP_INPUT_SCE (R360): the SCE result on its way reaches I2; the silence timer restarts. -/
def execHpInputSce (s : State) : Host.Outcome State Fault Refusal :=
  if s.hp.sceIn then
    let t := updHp s (fun h => { h with sceIn := false })
    if i2Runs s then
      .next (hpScan (updHp (instant t) (fun h =>
        hpStage { h with silent := false } (ruleIsSce h) (fun m => .value ((nth h.conf (ruleSrc h m) 0 : Nat) : Int)))))
    else .next t
  else .next s

/-- SCE_SILENCE_TIMEOUT (R360): the silence timer reaches `SCE_TO`. -/
def execSceSilenceTimeout (s : State) : Host.Outcome State Fault Refusal :=
  if i2Runs s && !s.hp.silent then
    .next (hpScan (updHp (instant s) (fun h => hpStage { h with silent := true } (ruleIsSce h) (fun _ => .silence))))
  else .next s

/-- ARM_FIRST_KEY (R364). -/
def execArmFirstKey (f : Fr) (s : State) : Host.Outcome State Fault Refusal := .next (wframe f 0x51 0x5A17 (hpArmAct 0x5A17) s)

/-- ARM_SECOND_KEY (R364, R365). -/
def execArmSecondKey (f : Fr) (s : State) : Host.Outcome State Fault Refusal := .next (wframe f 0x51 0xA5E8 (hpArmAct 0xA5E8) s)

/-- ARM_SEQUENCE_TIMEOUT (R364): 100 ms have passed since the first key. -/
def execArmSequenceTimeout (s : State) : Host.Outcome State Fault Refusal := .next (abandonSeq s)

/-- RELEASE_KEY (R364). -/
def execReleaseKey (f : Fr) (s : State) : Host.Outcome State Fault Refusal := .next (wframe f 0x51 0x3C96 (hpArmAct 0x3C96) s)

/-- DISARM_KEY (R364). -/
def execDisarmKey (f : Fr) (s : State) : Host.Outcome State Fault Refusal := .next (wframe f 0x51 0xD15A (hpArmAct 0xD15A) s)

/-- INVALID_KEY (R364): any other value written to `HP_ARM`. -/
def execInvalidKey (f : Fr) (key : BitVec 16) (s : State) : Host.Outcome State Fault Refusal :=
  .next (wframe f 0x51 (key.setWidth 32) (hpArmAct key.toNat) s)

/-- HP_HOLD (R370): a write of `HP_CTRL` seen from its HOLD field. -/
def execHpHold (f : Fr) (v : Word) (s : State) : Host.Outcome State Fault Refusal := .next (wframe f 0x52 v (hpCtrlAct v) s)

/-- HP_RUNST (R375): a write of `HP_CTRL` seen from its RUNST field. -/
def execHpRunst (f : Fr) (v : Word) (s : State) : Host.Outcome State Fault Refusal := .next (wframe f 0x52 v (hpCtrlAct v) s)

/-- HP_CTRL_CONFIG (R367): a write of `HP_CTRL` seen from TST and SCE_TO. -/
def execHpCtrlConfig (f : Fr) (v : Word) (s : State) : Host.Outcome State Fault Refusal := .next (wframe f 0x52 v (hpCtrlAct v) s)

/-- HP_TRIPACK (R362): a write of `HP_STATUS`. -/
def execHpTripack (f : Fr) (v : Word) (s : State) : Host.Outcome State Fault Refusal := .next (wframe f 0x50 v (hpStatusAct v) s)

/-- HP_RULE_WRITE (R358, R719): a write of `HP_RULE_DATA`. -/
def execHpRuleWrite (f : Fr) (v : Word) (s : State) : Host.Outcome State Fault Refusal := .next (wframe f 0x54 v (hpDataAct v) s)

/-- SELFTEST_PERIOD (R375): `TST` x 10 ms have passed. -/
def execSelftestPeriod (s : State) : Host.Outcome State Fault Refusal := if i2Runs s then .next (startSelftest s) else .next s

/-- SELFTEST_DONE (R375, R377). -/
def execSelftestDone (o : SelfTestObs) (s : State) : Host.Outcome State Fault Refusal :=
  if i2Runs s && s.hp.stRun then
    let s := instant s
    let c := selftestCause s o
    .next (if c = 0 then selftestPass s else selftestFail (instant s) c)
  else .next s

/-- FEEDBACK_MISMATCH (R378): a feedback ball has disagreed with its driven level for more than 20 us. -/
def execFeedbackMismatch (fb : FbBall) (s : State) : Host.Outcome State Fault Refusal :=
  let isA : Bool := fb == .a
  if i2Runs s && !(if isA then s.hp.misA else s.hp.misB) then
    let s := instant s
    let t := updHp s (fun h =>
      { h with misA := h.misA || isA, misB := h.misB || !isA, fbA := if isA then !haltA s else h.fbA,
               fbB := if isA then h.fbB else !haltB s, released := false, mismatch := satInc 0xFFFF h.mismatch })
    .next (deviceFault t 0x21 (if isA then 1 else 2) 2 0xE)
  else .next s

/-- FEEDBACK_MISMATCH_END (R364): the ball agrees again. -/
def execFeedbackMismatchEnd (fb : FbBall) (s : State) : Host.Outcome State Fault Refusal :=
  match fb with
  | .a => .next (updHp s (fun h => { h with misA := false }))
  | .b => .next (updHp s (fun h => { h with misB := false }))

end Sys2Proof.Machine
end

