-- ==== Sys2Proof/Machine/Sensor.lean ====
section
/-! DEFINITION. The sensor front end (chapter 08): pins, channels and their slots, the sample pipeline, counters, manual transfers,
its registers, and the meanings of its events. -/

namespace Sys2Proof.Machine

open Sys2Proof

/-! ### Pins (R325, R329, R718) -/

/-- Signals of the pin multiplexer. -/
inductive Sig where
  | scl (k : Nat)
  | sda (k : Nat)
  | sck (k : Nat)
  | mosi (k : Nat)
  | miso (k : Nat)
  | cs (k i : Nat)
  | cntA (k : Nat)
  | cntB (k : Nat)
  | pdmClk
  | pdmD (k : Nat)
  deriving DecidableEq, Repr

/-- F1 and F2 of pins SP0 to SP23 (R325). -/
def pinF1 : List (Option Sig) :=
  [some (.scl 0), some (.sda 0), some (.scl 1), some (.sda 1), some (.cntA 0), some (.cntB 0), some (.cntA 1),
   some (.cntB 1), some (.scl 2), some (.sda 2), some (.cntA 3), some (.cntB 3), some (.sck 1), some (.mosi 1),
   some (.miso 1), some (.cs 1 0), some (.cs 1 1), some (.cntA 2), some (.cntB 2), some (.cntA 3), some (.cntB 3),
   some (.cntA 1), some (.cntB 1), none]

def pinF2 : List (Option Sig) :=
  [some (.sck 0), some (.mosi 0), some (.miso 0), some (.cs 0 0), some (.cs 0 1), some .pdmClk, some (.pdmD 0),
   some (.pdmD 1), some (.cntA 2), some (.cntB 2), none, none, some (.scl 1), some (.sda 1), some (.scl 2),
   some (.sda 2), some .pdmClk, some (.pdmD 0), some (.pdmD 1), none, none, none, none, none]

/-- The signal that a MUX code selects on pin k. -/
def pinSig (k mux : Nat) : Option Sig :=
  if mux = 2 then nth pinF1 k none else if mux = 3 then nth pinF2 k none else none

/-- `SP_CFG.MUX` of pin k. -/
def pinMux (s : State) (k : Nat) : Nat := bits (nth s.sns.spcfg k 0) 2 0

/-- The pin that carries a signal. -/
def pinOf (s : State) (g : Sig) : Option Nat := (List.range 24).find? (fun k => pinSig k (pinMux s k) == some g)

/-- The class of a level of VIO_SB1 in microvolts (R328). -/
def sb1Class (uv : Nat) : BitVec 2 :=
  if 1710000 ≤ uv ∧ uv ≤ 1890000 then 0b01 else if 3000000 ≤ uv ∧ uv ≤ 3600000 then 0b10 else 0b00

/-- VIO_SB1 is classified, which the device does from PD2's power-up on (R328). -/
def sb1Detect (s : State) : State := updSns s (fun f => { f with sb1det := sb1Class f.sb1uv })

/-- The buffers of bank SB1 are on (R329). -/
def sb1On (s : State) : Bool := s.sns.sb1det == (if s.sns.sb1v then 0b10 else 0b01)

/-- The pad of pin k is latched (04 R156). -/
def padLatched (s : State) (k : Nat) : Bool := s.pwr.pads.getLsbD (if k < 12 then 0 else 1)

/-- The front end sees pin k: its pad is not latched (R718), its bank's buffers are on (R329). -/
def pinLive (s : State) (k : Nat) : Bool := !padLatched s k && (decide (k < 12) || sb1On s)

/-- The front end sees the pin that carries a signal. -/
def sigLive (s : State) (g : Sig) : Bool :=
  match pinOf s g with
  | some k => pinLive s k
  | none => false

/-- An input of counter c, A or B, lies on a latched pad (R718), in pulse mode too. -/
def counterLatched (s : State) (c : Nat) : Bool :=
  [Sig.cntA c, .cntB c].any (fun g => match pinOf s g with
    | some k => padLatched s k
    | none => false)

/-! ### Channel fields (R353) -/

def chEn (c : Chan) : Bool := bit c.ctrl 31
def chStalek (c : Chan) : Nat := bits c.ctrl 27 24
def chClipf (c : Chan) : Nat := bits c.ctrl 23 20
def chFilt (c : Chan) : Nat := bits c.ctrl 19 18
def chIira (c : Chan) : Nat := bits c.ctrl 17 15
def chSrc (c : Chan) : Nat := bits c.ctrl 11 8
def chSub (c : Chan) : Nat := bits c.ctrl 7 0
def chPer (c : Chan) : Nat := bits c.per 19 0
def chPhase (c : Chan) : Nat := bits c.phase 19 0
def chLen (c : Chan) : Nat := bits c.xfer 3 0

/-- The pins that a channel needs: signals, and the pin of a digital input. A counter in pulse mode ignores B. -/
def chSigs (c : Chan) : List Sig :=
  let r := chSrc c
  let pulse := (chSub c).testBit 1
  if r < 3 then [.scl r, .sda r]
  else if r < 5 then [.sck (r - 3), .mosi (r - 3), .miso (r - 3), .cs (r - 3) (chSub c % 2)]
  else if r = 5 then []
  else if r < 10 then (if pulse then [.cntA (r - 6)] else [.cntA (r - 6), .cntB (r - 6)])
  else if r < 12 then [.pdmClk, .pdmD (r - 10)]
  else []

/-- The pin of a digital-input channel. -/
def chPin (c : Chan) : Nat := chSub c % 32

/-- The pins a channel uses now, none when one of them is not selected. -/
def chPins (s : State) (c : Chan) : Option (List Nat) :=
  if chSrc c = 12 then (if chPin c < 24 ∧ pinMux s (chPin c) = 1 then some [chPin c] else none)
  else (chSigs c).mapM (pinOf s)

/-- Every pad the channel uses is seen by the front end (R329, R718). -/
def chLive (s : State) (c : Chan) : Bool :=
  let r := chSrc c
  if r = 5 then !s.pwr.pads.getLsbD 2
  else if 6 ≤ r ∧ r < 10 ∧ counterLatched s (r - 6) then false
  else match chPins s c with
    | some ps => ps.all (pinLive s)
    | none => false

/-- The channel numbers. -/
def chNums : List Nat := List.range 16

/-- A manual transfer is in progress on a controller: 0 to 4 as `BUS`. -/
def manualOn (s : State) (b : Nat) : Bool := bit s.sns.xfer.ctrl 31 && bits s.sns.xfer.ctrl 27 24 == b

/-- The checks of an enable (R336). -/
def chConfigOk (s : State) (c : Chan) : Bool :=
  let serial := decide (chSrc c < 5)
  decide (100 ≤ chPer c) && decide (chPer c ≤ 1000000) && decide (chPhase c < chPer c) && (chPins s c).isSome &&
    (!serial || (decide (1 ≤ chLen c) && decide (chLen c ≤ 8) &&
      decide (bits c.extract 6 0 + bits c.extract 11 8 + 1 ≤ 8 * chLen c))) &&
    (!(serial && bit c.check 3) || decide (bits c.check 2 0 < chLen c)) &&
    decide (asSigned 16 (bits c.range 15 0) ≤ asSigned 16 (bits c.range 31 16)) &&
    !(serial && manualOn s (chSrc c))

/-! ### Verdicts (R344 to R349) -/

def vValid : BitVec 2 := 0b00
def vClipped : BitVec 2 := 0b01
def vStale : BitVec 2 := 0b10
def vFault : BitVec 2 := 0b11

/-- A verdict update: output registers, `SNS_CHG`, the record for Hardpan and for the SCE's features (10 R390). STALE
restarts the rate stage and the filter (R348). -/
def verdictUpdate (s : State) (n : Nat) (v : BitVec 2) (x : BitVec 16) (st : Stamp) : State :=
  let old := chanSt s n
  let good := v == vValid || v == vClipped
  let t := updChan s n (fun c =>
    let c := { c with verdict := v, value := x, stamp := st, sseq := (c.sseq + 1) % 256 }
    let c := if good then { c with hist := (x :: c.hist).take 64, first := some (c.first.getD x) } else c
    if v == vStale then { c with prev := none, med := [], iir := none } else c)
  updSns t (fun f =>
    let chg := if old.verdict == v then f.chg else setBit f.chg n true
    let chg := if old.verdict != v && !good then setBit chg (16 + n) true else chg
    { f with chg, toHp := f.toHp ++ [(n, v, x)] })

/-- Stages 1 to 3 on a raw value: the channel with its new rate and filter state, the output, and the clip mark. -/
def pipeline (c : Chan) (raw : Int) : Chan × Int × Bool :=
  let lo := asSigned 16 (bits c.rangeNow 15 0)
  let hi := asSigned 16 (bits c.rangeNow 31 16)
  let v1 := clampI lo hi raw
  let clip1 := decide (v1 ≠ raw)
  let rmax : Int := (bits c.rateNow 15 0 : Nat)
  let r2 : Int × Bool :=
    match c.prev with
    | none => (v1, false)
    | some p =>
      let d := asSigned 16 (toTwos 16 (v1 - p))
      if rmax = 0 then (v1, false)
      else if rmax < d then (asSigned 16 (toTwos 16 (p + rmax)), true)
      else if d < -rmax then (asSigned 16 (toTwos 16 (p - rmax)), true)
      else (v1, false)
  let v2 := r2.1
  let med := (v2 :: c.med).take 3
  let y := match c.iir with
    | none => v2 * 256
    | some y => y + (v2 * 256 - y) / (2 ^ chIira c : Nat)
  let out :=
    if chFilt c = 1 then
      match med with
      | [a, b, d] => max (min a b) (min (max a b) d)
      | _ => v2
    else if chFilt c = 2 then (y + 0x80) / 256
    else v2
  ({ c with prev := some v2, med := med, iir := some y }, out, clip1 || r2.2)

/-- A FAULT sample or a miss is judged: STALE once the miss count has reached STALEK (R345, R346). -/
def judgeBad (s : State) (n : Nat) (miss : Bool) (st : Stamp) : State :=
  let t := updChan s n (fun c =>
    { c with missRun := c.missRun + 1, misses := if miss then satInc 0xFFFF c.misses else c.misses,
             faults := if miss then c.faults else satInc 0xFFFF c.faults })
  let c := chanSt t n
  if chStalek c ≤ c.missRun then verdictUpdate t n vStale c.value st
  else if miss then t
  else verdictUpdate t n vFault c.value st

/-- A completed sample: none when it is FAULT, else its raw value (R344 to R346). -/
def judge (s : State) (n : Nat) (raw : Option (BitVec 16)) (st : Stamp) : State :=
  match raw with
  | none => judgeBad (updChan s n (fun c => { c with clipRun := 0 })) n false st
  | some x =>
    let r := pipeline (chanSt s n) x.toInt
    let clip := r.2.2
    let t := updChan s n (fun _ => { r.1 with clipRun := if clip then satInc 16 r.1.clipRun else 0 })
    let c := chanSt t n
    if chClipf c ≠ 0 ∧ chClipf c ≤ c.clipRun then judgeBad t n false st
    else
      verdictUpdate (updChan t n (fun c => { c with missRun := 0 })) n (if clip then vClipped else vValid)
        (BitVec.ofInt 16 r.2.1) st

/-! ### Slots and shared controllers (R330 to R334, R339, R343) -/

/-- The source is shared: an I3C or SPI controller or the ADC. -/
def shared (r : Nat) : Bool := decide (r ≤ 5)

/-- The channel whose transfer holds the source. -/
def sourceHolder (s : State) (r : Nat) : Option Nat :=
  chNums.find? (fun m => (chanSt s m).slot == .transfer && chSrc (chanSt s m) == r)

/-- Another channel's transfer holds the source. -/
def sourceHeld (s : State) (r : Nat) : Bool := (sourceHolder s r).isSome

/-- The count of transfers in a row that ended with SDA low, after one more; the recovery that follows two of them starts the
count again (R343). -/
def sdaAfter (k : Nat) (low : Bool) : Nat := if low then (if 2 ≤ k then 1 else k + 1) else 0

/-- A unit's counts after a transfer on its controller b. -/
def Xfer.ended (x : Xfer) (b : Nat) (low : Bool) : Xfer := { x with sda := upd x.sda b (fun k => sdaAfter k low) }

/-- What is sent before the next transfer on an I3C controller: the recovery, after two that ended with SDA low (R343). -/
def recovery (x : Xfer) (b : Nat) : List BusOp := if 2 ≤ nth x.sda b 0 then [.recover] else []

/-- What a transfer of the channel does on its bus (R339, R323). -/
def chanOps (c : Chan) : List BusOp :=
  let r := chSrc c
  let a := bits c.xfer 31 25
  let reg := if bit c.xfer 24 then [BusOp.write (BitVec.ofNat 8 (bits c.xfer 23 16))] else []
  if r < 3 then
    (if reg.isEmpty then [] else .start a false :: reg) ++ [.start a true, .read (chLen c), .stop]
  else if r < 5 then .select (some (chSub c % 2)) :: reg ++ [.read (chLen c), .release]
  else if r = 5 then [.convert (bits c.ctrl 2 0) (2 ^ bits c.ctrl 4 3)]
  else []

/-- The channel begins its transfer now; a pending bus recovery is made first (R343). -/
def beginTransfer (s : State) (n : Nat) : State :=
  let st := now s
  updChan (stamped s) n (fun c =>
    { c with slot := .transfer, slotStamp := st, sent := recovery s.sns.xfer (chSrc c) ++ chanOps c })

/-- A transfer of the channel ends on its I3C controller, with SDA low or not (R343). -/
def busEnd (s : State) (n : Nat) (low : Bool) : State :=
  if chSrc (chanSt s n) < 3 then updSns s (fun f => { f with xfer := f.xfer.ended (chSrc (chanSt s n)) low }) else s

/-- Of the channels waiting for a source, the one whose slot started first, the lower number first. -/
def nextWaiting (s : State) (r : Nat) : Option Nat :=
  chNums.foldl (fun best m =>
    if (chanSt s m).slot == .waiting && chSrc (chanSt s m) == r then
      match best with
      | none => some m
      | some b => if (chanSt s m).slotU < (chanSt s b).slotU then some m else best
    else best) none

/-- The channel's slot is over; the source goes to the next waiting channel. -/
def freeSlot (s : State) (n : Nat) : State :=
  let r := chSrc (chanSt s n)
  let t := updChan s n (fun c => { c with slot := .idle })
  if shared r && !sourceHeld t r then
    match nextWaiting t r with
    | some m => beginTransfer t m
    | none => t
  else t

/-- The end of a slot that waits: a miss, stamped with the slot's end (R333, R349). -/
def missSlot (s : State) (n : Nat) : State := freeSlot (judgeBad (stamped s) n true (now s)) n

/-- A transfer abandoned: a FAULT sample (R334). -/
def abandonSlot (s : State) (n : Nat) (low : Bool) : State :=
  freeSlot (judge (busEnd s n low) n none (chanSt s n).slotStamp) n

/-- The level of SDA where the manual brings a transfer to its end from inside: a free value (DESIGN CHOICE, log 99). -/
def sdaFree (s : State) : State × Bool := ({ s with freeK := s.freeK + 1 }, Config.sdaHeld s.freeK)

/-- The end of a slot, whatever stands in it. -/
def endSlot (s : State) (n : Nat) : State :=
  match (chanSt s n).slot with
  | .idle => s
  | .waiting => missSlot s n
  | .transfer => abandonSlot (sdaFree s).1 n (sdaFree s).2

/-- A counter's sample: the low 16 bits of the count, or the saturated change since the previous slot (R342). -/
def rawCounter (s : State) (c : Chan) : Option (BitVec 16) :=
  let k := nth s.sns.cnts (chSrc c - 6) ⟨0, false, false, false⟩
  if k.illegal then none
  else if (chSub c).testBit 0 then some (BitVec.ofInt 16 (clampI (-32768) 32767 (k.count - c.base)))
  else some (BitVec.ofInt 16 k.count)

/-- A PDM window's mean absolute amplitude, rounded down (DEDUCED, log 15) (DESIGN CHOICE, log 14). -/
def rawPdm (c : Chan) : Option (BitVec 16) :=
  if c.pdmNum = 0 ∨ !c.pdmChg then none
  else
    let m := c.pdmSum / c.pdmNum
    some (if m = 32768 then Config.pdmPeak c.pdmNum else BitVec.ofNat 16 m)

/-- What a slot start takes from its source (R342, R349): a counter's value, whose base and mark start again; a PDM input's window,
which ends here. -/
def slotCapture (s : State) (n : Nat) : State :=
  let c := chanSt s n
  let r := chSrc c
  if 6 ≤ r ∧ r < 10 then
    let k := nth s.sns.cnts (r - 6) ⟨0, false, false, false⟩
    let x := if chLive s c then rawCounter s c else none
    updChan (updSns s (fun f => { f with cnts := upd f.cnts (r - 6) (fun x => { x with illegal := false }) })) n
      (fun c => { c with base := k.count, slotRaw := x })
  else if r = 10 ∨ r = 11 then
    let x := if chLive s c then rawPdm c else none
    updChan s n (fun c => { c with pdmSum := 0, pdmNum := 0, pdmChg := false, slotRaw := x })
  else s

/-- A slot starts (R330, R332, R337): new limits take effect, a counter's value or a PDM window is taken, a transfer begins or waits. Of
two slots that start at the same moment the lower channel goes first, whichever command came first (R332). -/
def startSlot (s : State) (n u : Nat) : State :=
  let t := slotCapture (updChan s n (fun c => { c with rangeNow := c.range, rateNow := c.rate, slotU := u, slot := .waiting })) n
  let r := chSrc (chanSt t n)
  if shared r then
    match sourceHolder t r with
    | none => beginTransfer t n
    | some m =>
      if n < m ∧ (chanSt t m).slotU = u then beginTransfer (updChan t m (fun c => { c with slot := .waiting })) n else t
  else beginTransfer t n

/-! ### Raw values (R340 to R342) -/

/-- The raw value of a serial sample. -/
def rawBytes (c : Chan) (bs : List Byte) : Option (BitVec 16) :=
  let w := if bit c.extract 13 then fromLe bs else fromBe bs
  let n := bits c.extract 11 8 + 1
  let f := (w >>> bits c.extract 6 0) % 2 ^ n
  let bad := bit c.check 3 && (nth bs (bits c.check 2 0) 0).toNat &&& bits c.check 23 16 != bits c.check 31 24
  if bad then none else some (if bit c.extract 12 then BitVec.ofInt 16 (asSigned n f) else BitVec.ofNat 16 f)

/-- The code of a voltage in nanovolts: V × 4,096 / 1.8 V rounded down, at most 4,095 (R323). -/
def adcCode (nv : Nat) : Nat := min 4095 (nv * 4096 / 1800000000)

/-- What a completed transfer brings fits the source; then the raw value, none when the sample is FAULT. -/
def rawOf (s : State) (n : Nat) (i : SampleIn) : Option (Option (BitVec 16)) :=
  let c := chanSt s n
  let r := chSrc c
  let live := chLive s c
  let put := fun (x : Option (BitVec 16)) => some (if live then x else none)
  match i with
  | .bytes bs => if r < 5 ∧ bs.length = chLen c then put (rawBytes c bs) else none
  | .busFault _ => if r < 5 then some none else none
  | .adc nv ok =>
    if r = 5 ∧ nv.length = 2 ^ bits c.ctrl 4 3 then
      put (if ok then some (BitVec.ofNat 16 ((nv.map adcCode).sum / nv.length)) else none)
    else none
  | .counter => if 6 ≤ r ∧ r < 10 then put c.slotRaw else none
  | .pdm => if r = 10 ∨ r = 11 then put c.slotRaw else none
  | .level l => if r = 12 then put (some (BitVec.ofNat 16 (b2n l))) else none

/-- A transfer ends with SDA held low. -/
def SampleIn.low : SampleIn → Bool
  | .busFault b => b
  | _ => false

/-! ### Registers (R326, R327, R336 to R338, R353) -/

/-- A channel is disabled (R338): its transfer is abandoned, its pipeline cleared, its verdict STALE at once. -/
def disableChan (s : State) (n : Nat) : State :=
  let b := if (chanSt s n).slot = .transfer then busEnd (sdaFree s).1 n (sdaFree s).2 else s
  let t := updChan b n (fun c => { c with prev := none, med := [], iir := none, missRun := 0, clipRun := 0 })
  freeSlot (verdictUpdate (stamped t) n vStale (chanSt t n).value (now s)) n

/-- A channel is enabled: counts since the enable start at 0, a counter's base is its count now. -/
def enableChan (s : State) (n : Nat) : State :=
  updChan s n (fun c =>
    let k := nth s.sns.cnts (chSrc c - 6) ⟨0, false, false, false⟩
    { c with faults := 0, misses := 0, missRun := 0, clipRun := 0, prev := none, med := [], iir := none, hist := [],
             first := none, slot := .idle, rangeNow := c.range, rateNow := c.rate, pdmSum := 0, pdmNum := 0,
             pdmChg := false, base := if 6 ≤ chSrc c ∧ chSrc c < 10 then k.count else 0 })

/-- The fields of `CH_CTRL` but EN and CFGERR. -/
def chCtrlFields : List Fld :=
  [⟨27, 24, .rw, 1, 15⟩, ⟨23, 20, .rw, 0, 15⟩, ⟨19, 18, .rw, 0, 2⟩, ⟨17, 15, .rw, 1, 7⟩, ⟨11, 8, .rw, 0, 12⟩,
   ⟨7, 0, .rw, 0, 255⟩]

/-- The fields of `CH_XFER`, `CH_EXTRACT` and `CH_CHECK`. -/
def chXferFields : List Fld := [⟨31, 25, .rw, 0, 127⟩, ⟨24, 24, .rw, 0, 1⟩, ⟨23, 16, .rw, 0, 255⟩, ⟨3, 0, .rw, 0, 15⟩]

def chExtractFields : List Fld := [⟨13, 13, .rw, 0, 1⟩, ⟨12, 12, .rw, 0, 1⟩, ⟨11, 8, .rw, 0, 15⟩, ⟨6, 0, .rw, 0, 127⟩]

def chCheckFields : List Fld := [⟨31, 24, .rw, 0, 255⟩, ⟨23, 16, .rw, 0, 255⟩, ⟨3, 3, .rw, 0, 1⟩, ⟨2, 0, .rw, 0, 7⟩]

/-- A write of `CH_CTRL`. -/
def chCtrlWrite (n : Nat) (v : Word) : RegAct := fun s =>
  let c := chanSt s n
  let w := writeReg chCtrlFields c.ctrl v
  if chEn c then
    if bit v 31 then (s, stAddr)
    else (updChan (disableChan s n) n (fun c => { c with ctrl := setBit w 30 (bit c.ctrl 30) }), stOk)
  else if bit v 31 then
    let t := updChan s n (fun c => { c with ctrl := w })
    if chConfigOk t (chanSt t n) then (enableChan (updChan t n (fun c => { c with ctrl := setBit w 31 true })) n, stOk)
    else (updChan t n (fun c => { c with ctrl := setBit w 30 true }), stOk)
  else (updChan s n (fun c => { c with ctrl := setBit w 30 (bit c.ctrl 30) }), stOk)

/-- A write of a channel register that an enabled channel does not take. -/
def chLocked (n : Nat) (f : Chan → Chan) : RegAct := fun s =>
  if chEn (chanSt s n) then (s, stAddr) else (updChan s n f, stOk)

/-- A write of a register of channel n. -/
def chWrite (n off : Nat) (v : Word) : RegAct := fun s =>
  if off = 0x100 then chCtrlWrite n v s
  else if off = 0x104 then chLocked n (fun c => { c with per := writeReg [⟨19, 0, .rw, 0, 0xFFFFF⟩] c.per v }) s
  else if off = 0x108 then chLocked n (fun c => { c with phase := writeReg [⟨19, 0, .rw, 0, 0xFFFFF⟩] c.phase v }) s
  else if off = 0x10C then
    chLocked n (fun c => { c with xfer := writeReg chXferFields c.xfer v }) s
  else if off = 0x110 then
    chLocked n (fun c => { c with extract := writeReg chExtractFields c.extract v }) s
  else if off = 0x114 then
    chLocked n (fun c => { c with check := writeReg chCheckFields c.check v }) s
  else if off = 0x118 then (updChan s n (fun c => { c with range := v }), stOk)
  else if off = 0x11C then (updChan s n (fun c => { c with rate := writeReg [⟨15, 0, .rw, 0, 0xFFFF⟩] c.rate v }), stOk)
  else if off = 0x120 ∨ off = 0x124 ∨ off = 0x128 then (s, stOk)
  else (s, stAddr)

/-- A read of a register of channel n. -/
def chRead (s : State) (n off : Nat) : Option Word :=
  let c := chanSt s n
  if off = 0x100 then some c.ctrl
  else if off = 0x104 then some c.per
  else if off = 0x108 then some c.phase
  else if off = 0x10C then some c.xfer
  else if off = 0x110 then some c.extract
  else if off = 0x114 then some c.check
  else if off = 0x118 then some c.range
  else if off = 0x11C then some c.rate
  else if off = 0x120 then
    some (mkWord [(16, 16, c.value.toNat), (14, 2, c.verdict.toNat), (12, 2, c.stamp.qual.toNat), (0, 8, c.sseq)])
  else if off = 0x124 then some (mkWord [(24, 8, c.sseq), (0, 24, c.stamp.dt)])
  else if off = 0x128 then some (mkWord [(16, 16, c.faults), (0, 16, c.misses)])
  else none

/-- An enabled channel uses the signal, or the digital input, that pin k carries (R327). -/
def pinInUse (s : State) (k : Nat) : Bool :=
  chNums.any (fun n =>
    let c := chanSt s n
    chEn c && (match chPins s c with
      | some ps => ps.contains k
      | none => false))

/-- A write of `SP_CFG` of pin k (R326, R327). -/
def spCfgAct (k : Nat) (v : Word) : RegAct := fun s =>
  if pinInUse s k then (s, stAddr)
  else
    let old := nth s.sns.spcfg k 0
    let w := writeReg [⟨5, 4, .rw, 0, 2⟩, ⟨2, 0, .rw, 0, 3⟩] old v
    let mux := bits w 2 0
    let sig := pinSig k mux
    let taken := match sig with
      | some g => (List.range 24).any (fun j => j != k && pinSig j (pinMux s j) == some g)
      | none => false
    if (decide (2 ≤ mux) && sig.isNone) || taken then
      (updSns s (fun f => { f with spcfg := upd f.spcfg k (fun _ => setBits w 2 0 (bits old 2 0)), muxerr := true }), stOk)
    else (updSns s (fun f => { f with spcfg := upd f.spcfg k (fun _ => w) }), stOk)

/-- What a manual transfer does on its bus (R351): with `CCC` = 1 the first write byte is a CCC, broadcast to 0x7E and else direct;
ENTDAA assigns the second write byte. DEDUCED, log 98: the order of the parts. -/
def manualOps (w : Word) (d0 d1 : Word) : List BusOp :=
  let a := bits w 22 16
  let rlen := bits w 3 0
  let bs := (leBytes 4 d0.toNat ++ leBytes 4 d1.toNat).take (bits w 7 4)
  let rd := fun (a : Nat) => if rlen = 0 then [] else [BusOp.start a true, .read rlen]
  let wr := fun (a : Nat) (bs : List Byte) => if bs.isEmpty && rlen != 0 then [] else BusOp.start a false :: bs.map .write
  if 3 ≤ bits w 27 24 then .select none :: bs.map .write ++ (if rlen = 0 then [] else [.read rlen]) ++ [.release]
  else match bit w 23, bs with
    | true, c :: rest =>
      if a = 0x7E then
        if c = 0x07 ∧ rlen = 8 ∧ rest.length = 1 then
          [.start 0x7E false, .write c, .start 0x7E true, .read 8] ++ rest.map .assign ++ [.stop]
        else .start 0x7E false :: (c :: rest).map .write ++ rd 0x7E ++ [.stop]
      else [.start 0x7E false, .write c] ++ wr a rest ++ rd a ++ [.stop]
    | _, bs => wr a bs ++ rd a ++ [.stop]

/-- A write of the control register of a manual-transfer unit (R352): `used` tells the controllers that an enabled
channel uses, `top` the highest `BUS` code. A transfer that starts makes a pending bus recovery first (R343). -/
def xferWrite (used : Nat → Bool) (top : Nat) (v : Word) (x : Xfer) : Xfer :=
  let w := writeReg [⟨31, 31, .ro, 0, 1⟩, ⟨30, 28, .ro, 0, 7⟩, ⟨27, 24, .rw, 0, top⟩, ⟨23, 23, .rw, 0, 1⟩, ⟨22, 16, .rw, 0, 127⟩,
    ⟨7, 4, .rw, 0, 8⟩, ⟨3, 0, .rw, 0, 8⟩] x.ctrl v
  if !bit v 31 || bit x.ctrl 31 then { x with ctrl := w }
  else if used (bits w 27 24) then { x with ctrl := setBits w 30 28 3 }
  else { x with ctrl := setBit w 31 true, sent := recovery x (bits w 27 24) ++ manualOps w x.data0 x.data1 }

/-- A controller is used by an enabled channel. -/
def busUsed (s : State) (b : Nat) : Bool := chNums.any (fun n => chEn (chanSt s n) && chSrc (chanSt s n) == b)

/-- The end of a manual transfer: `STAT` and the bytes read, which replace as many bytes written (R353). -/
def xferEnd (x : Xfer) (e : XferEnd) (low : Bool) : Xfer :=
  if !bit x.ctrl 31 then x
  else match e with
    | .nack => { x.ended (bits x.ctrl 27 24) low with ctrl := setBits (setBit x.ctrl 31 false) 30 28 1 }
    | .ok bs =>
      if bs.length = bits x.ctrl 3 0 then
        let all := bs ++ (leBytes 4 x.data0.toNat ++ leBytes 4 x.data1.toNat).drop bs.length
        { x.ended (bits x.ctrl 27 24) low with
          ctrl := setBits (setBit x.ctrl 31 false) 30 28 0, data0 := BitVec.ofNat 32 (fromLe (all.take 4)),
          data1 := BitVec.ofNat 32 (fromLe (all.drop 4)) }
      else x

/-- A manual transfer has not completed within 10 ms. -/
def xferTimeout (x : Xfer) (low : Bool) : Xfer :=
  if bit x.ctrl 31 then { x.ended (bits x.ctrl 27 24) low with ctrl := setBits (setBit x.ctrl 31 false) 30 28 2 } else x

/-- The front end sees every pin that a manual transfer uses; for the I/O tile, its pads are not latched (R329, R718, 04 R156). -/
def manualLive (s : State) (iot : Bool) : Bool :=
  let b := bits s.sns.xfer.ctrl 27 24
  if iot then !s.pwr.pads.getLsbD 6
  else if b < 3 then [Sig.scl b, .sda b].all (sigLive s)
  else [Sig.sck (b - 3), .mosi (b - 3), .miso (b - 3)].all (sigLive s)

/-- A write of a register of I19. -/
def snsWrite (off : Nat) (v : Word) : RegAct := fun s =>
  if off = 0x100 then
    (updSns s (fun f => { f with muxerr := f.muxerr && !bit v 8, sb1v := bit v 0 }), stOk)
  else if off = 0x104 then
    let i3c := fun (old : Nat) (w : Nat) => if w % 2 = 1 ∧ w / 2 = 3 then old else w
    (updSns s (fun f =>
      let o := f.buscfg
      { f with buscfg := mkWord [(18, 2, bits v 19 18), (14, 4, bits v 17 14), (10, 4, bits v 13 10),
          (6, 3, i3c (bits o 8 6) (bits v 8 6)), (3, 3, i3c (bits o 5 3) (bits v 5 3)),
          (0, 3, i3c (bits o 2 0) (bits v 2 0))] }), stOk)
  else if 0x140 ≤ off ∧ off < 0x1A0 then spCfgAct ((off - 0x140) / 4) v s
  else if off = 0x1C0 then (updSns s (fun f => { f with xfer := xferWrite (busUsed s) 4 v f.xfer }), stOk)
  else if off = 0x1C4 then (updSns s (fun f => { f with xfer := { f.xfer with data0 := v } }), stOk)
  else if off = 0x1C8 then (updSns s (fun f => { f with xfer := { f.xfer with data1 := v } }), stOk)
  else (s, stAddr)

/-- A read of a register of I19. -/
def snsRead (s : State) (off : Nat) : Option Word :=
  let f := s.sns
  if off = 0x100 then some (mkWord [(8, 1, b2n f.muxerr), (2, 2, f.sb1det.toNat), (0, 1, b2n f.sb1v)])
  else if off = 0x104 then some f.buscfg
  else if 0x140 ≤ off ∧ off < 0x1A0 then some (nth f.spcfg ((off - 0x140) / 4) 0)
  else if off = 0x1C0 then some f.xfer.ctrl
  else if off = 0x1C4 then some f.xfer.data0
  else if off = 0x1C8 then some f.xfer.data1
  else none

/-- `SNS_VERDICT` (index 0x60). -/
def snsVerdict (s : State) : Word := mkWord (chNums.map (fun n => (2 * n, 2, (chanSt s n).verdict.toNat)))

/-- A write of `SNS_CHG` (index 0x61). -/
def snsChgAct (v : Word) : RegAct := okAct (fun s => updSns s (fun f => { f with chg := f.chg &&& ~~~v }))

/-! ### Resets (R324, R354) -/

/-- The STALE updates of every channel whose verdict was not STALE. -/
def staleAll (s : State) : List (Nat × BitVec 2 × BitVec 16) :=
  (chNums.filter (fun n => (chanSt s n).verdict != vStale)).map (fun n => (n, vStale, (chanSt s n).value))

/-- A warm reset: every register at its reset value, every verdict STALE; VIO_SB1 stays classified (R328). -/
def snsWarm (s : State) : State :=
  updSns s (fun f => { Sns.reset with sb1det := f.sb1det, sb1uv := f.sb1uv, toHp := f.toHp ++ staleAll s })

/-- PD2 goes off, or comes up: configuration lost, verdicts STALE. -/
def snsPowerOff (s : State) : State := snsWarm s

/-- An island reset of channel n: the sample in progress is a miss, the pipeline is cleared, configuration kept. -/
def chanReset (s : State) (n : Nat) : State :=
  let t := match (chanSt s n).slot with
    | .idle => s
    | .waiting => missSlot s n
    | .transfer => missSlot (busEnd (sdaFree s).1 n (sdaFree s).2) n
  updChan t n (fun c => { c with prev := none, med := [], iir := none, clipRun := 0 })

/-- An island reset of I19: every sample in progress or waiting is FAULT, controllers restart idle (DEDUCED, log 68). -/
def snsReset (s : State) : State :=
  let t := chNums.foldl (fun t n => match (chanSt s n).slot with
    | .idle => t
    | _ => updChan (judge t n none (chanSt t n).slotStamp) n (fun c => { c with slot := .idle })) s
  updSns t (fun f => { f with xfer := { f.xfer with ctrl := setBit f.xfer.ctrl 31 false, sda := many 3 0 } })

/-! ### Commands -/

/-- CHANNEL_SLOT (R330): the schedule clock reaches a slot of channel n. -/
def execChannelSlot (n : Fin 16) (u : Nat) (s : State) : Host.Outcome State Fault Refusal :=
  let c := chanSt s n.val
  if pdOn s 2 && !(islSt s (3 + n.val)).held && chEn c && decide (0 < chPer c) && u % chPer c == chPhase c then
    .next (startSlot (endSlot (instant (askFio s)) n.val) n.val u)
  else .next s

/-- SAMPLE_DONE (R340 to R346): the transfer of channel n completes. -/
def execSampleDone (n : Fin 16) (r : SampleIn) (s : State) : Host.Outcome State Fault Refusal :=
  if !r.wf then .fault .illFormed
  else if (chanSt s n.val).slot == .transfer then
    match rawOf s n.val r with
    | none => .next s
    | some x => .next (freeSlot (judge (busEnd (instant s) n.val (SampleIn.low r)) n.val x (chanSt s n.val).slotStamp) n.val)
  else .next s

/-- SLOT_MISS (R333): the slot of channel n ends before its transfer began. -/
def execSlotMiss (n : Fin 16) (s : State) : Host.Outcome State Fault Refusal :=
  if (chanSt s n.val).slot == .waiting then .next (missSlot (instant s) n.val) else .next s

/-- TRANSFER_ABANDON (R334): the slot of channel n ends during its transfer. -/
def execTransferAbandon (n : Fin 16) (s : State) (low : Bool := false) : Host.Outcome State Fault Refusal :=
  if (chanSt s n.val).slot == .transfer then .next (abandonSlot (instant s) n.val low) else .next s

/-- The counter counts pulses: some channel that names it selects pulse mode, an enabled one first (DEDUCED, log 16). -/
def pulseMode (s : State) (k : Nat) : Bool :=
  let names := chNums.filter (fun n => chSrc (chanSt s n) == 6 + k)
  match names.find? (fun n => chEn (chanSt s n)) with
  | some n => (chSub (chanSt s n)).testBit 1
  | none => names.any (fun n => (chSub (chanSt s n)).testBit 1)

/-- One decoder sample of a counter (R324). In quadrature A leading B counts up (DEDUCED, log 17). -/
def Cnt.edge (c : Cnt) (pulse a b : Bool) : Cnt :=
  let c' := { c with a, b }
  if pulse then (if a && !c.a then { c' with count := c.count + 1 } else c')
  else if c.a != a && c.b != b then { c' with illegal := true }
  else if c.a != a then { c' with count := if a != b then c.count + 1 else c.count - 1 }
  else if c.b != b then { c' with count := if a == b then c.count + 1 else c.count - 1 }
  else c'

/-- COUNTER_EDGE (R324, R718): the inputs of a counter show new levels. -/
def execCounterEdge (c : Fin 4) (a b : Bool) (s : State) : Host.Outcome State Fault Refusal :=
  let pulse := pulseMode s c.val
  if pdOn s 2 && !counterLatched s c.val && sigLive s (.cntA c.val) && (pulse || sigLive s (.cntB c.val)) then
    .next (updSns (askFio s) (fun f => { f with cnts := upd f.cnts c.val (fun x => x.edge pulse a b) }))
  else .next s

/-- SB1_CLASS_CHANGE (R328): VIO_SB1 reaches a level; while PD2 is on, it is classified. -/
def execSb1ClassChange (uv : Nat) (s : State) : Host.Outcome State Fault Refusal :=
  let t := updSns s (fun f => { f with sb1uv := uv })
  .next (if pdPowered s 2 then sb1Detect t else t)

/-- MANUAL_TRANSFER_DONE (R351, 17 R682): a manual transfer of I19, or of the I/O tile, ends. Over a pin that the front end does not
see it ends in FAULT (R329, R718), which `STAT` shows as NACK (DESIGN CHOICE, log 98). One of the I/O tile waits until its bridge is UP
(17 R658, R673). -/
def execManualTransferDone (iot : Bool) (e : XferEnd) (s : State) (low : Bool := false) : Host.Outcome State Fault Refusal :=
  let e' := if manualLive s iot then e else .nack
  if !Instr.wf (.manualTransferDone iot e low) then .fault .illFormed
  else if iot then .next (if (tileSt s .io).link == .up then { s with iotXfer := xferEnd s.iotXfer e' low } else s)
  else .next (updSns s (fun f => { f with xfer := xferEnd f.xfer e' low }))

/-- MANUAL_TRANSFER_TIMEOUT (R353). -/
def execManualTransferTimeout (iot : Bool) (s : State) (low : Bool := false) : Host.Outcome State Fault Refusal :=
  if iot then .next { s with iotXfer := xferTimeout s.iotXfer low }
  else .next (updSns s (fun f => { f with xfer := xferTimeout f.xfer low }))

end Sys2Proof.Machine
end

