-- ==== Sys2Proof/Machine/Silt.lean ====
section
/-! DEFINITION. The silt tier (chapter 10): the classifier engine's registers, inference, the context label and its events, the
PCM ring, the sediment strata and the host's queries. -/

namespace Sys2Proof.Machine

open Sys2Proof

/-! ### Sediment entries (R400 to R406) -/

/-- The strata. -/
def strNums : List Nat := [0, 1, 2]

/-- Size of an entry, base of the ring, entries of the ring, offset of the open entry, width of a count, period. -/
def sedSize (k : Nat) : Nat := if k = 0 then 80 else if k = 1 then 144 else 272
def sedBase (k : Nat) : Nat := if k = 0 then 0x20000000 else if k = 1 then 0x20050000 else 0x20090000
def sedRing (k : Nat) : Nat := if k = 0 then 4096 else if k = 1 then 1440 else 720
def sedOpenAddr (k : Nat) : Nat := if k = 0 then 0x200BFD00 else if k = 1 then 0x200BFD50 else 0x200BFDE0
def sedWidth (k : Nat) : Nat := if k = 0 then 1 else if k = 1 then 2 else 4
def sedPeriod (k : Nat) : Nat := if k = 0 then 2 ^ 20 else if k = 1 then 60 * 2 ^ 20 else 3600 * 2 ^ 20

/-- The boundary at or before a time. -/
def sedBoundary (k t : Nat) : Nat := t / sedPeriod k * sedPeriod k

/-- The open entry of a stratum. -/
def sedOpen (s : State) (k : Nat) : OpenEntry := nth s.sed.opens k (.empty 0)

/-- Entries written in a stratum. -/
def sedWritten (s : State) (k : Nat) : Nat := nth s.sed.written k 0

/-- The class with the highest count, lowest number among equals; 0xFF when every count is 0. -/
def domClass (cnt : List Nat) : Nat :=
  let best := (List.range 64).foldl (fun b k => if nth cnt b 0 < nth cnt k 0 then k else b) 0
  if nth cnt best 0 = 0 then 0xFF else best

/-- The bytes of an entry (R403). -/
def entryBytes (k : Nat) (e : OpenEntry) (seq : Nat) (gap : Bool) : List Byte :=
  leBytes 8 e.start ++ leBytes 4 e.n ++ leBytes 2 seq ++ leBytes 1 (domClass e.cnt) ++
    leBytes 1 (e.qual.toNat + 4 * b2n gap + 8 * b2n e.incomplete) ++ (e.cnt.map (leBytes (sedWidth k))).flatten

/-- The open entry's image in memory follows its contents. -/
def syncOpen (s : State) (k : Nat) : State :=
  writeBytes s (sedOpenAddr k) (entryBytes k (sedOpen s k) (sedWritten s k) false)

/-- The open entry changed. -/
def updOpen (s : State) (k : Nat) (f : OpenEntry → OpenEntry) : State :=
  syncOpen (updSed s (fun d => { d with opens := upd d.opens k f })) k

/-- The higher quality code. -/
def maxQual (a b : BitVec 2) : BitVec 2 := if a.toNat < b.toNat then b else a

/-- Counts of one entry added into another, each saturating at its width (R403, R405). -/
def addCounts (w : Nat) (a b : List Nat) : List Nat := List.zipWith (fun x y => Nat.min (x + y) (2 ^ (8 * w) - 1)) a b

/-- `SED_QADDR` fields. -/
def qStr (s : State) : Nat := bits s.sed.qaddr 31 30
def qOpen (s : State) : Bool := bit s.sed.qaddr 29
def qWord (s : State) : Nat := bits s.sed.qaddr 6 0

/-- A query of the open entry follows that entry when it closes (R409, R413): to its place in the ring, or to no entry when it was not
written. -/
def closeSel (s : State) (k : Nat) (written : Bool) : State :=
  if s.sed.sel.isNone && !s.sed.selBad && qStr s == k then
    updSed s (fun d => if written then { d with sel := some (sedWritten s k - 1) } else { d with selBad := true })
  else s

/-- The open entry closes (R405, R406): it is written when it counts anything, and added into the next stratum's (DEDUCED, log 67). -/
def closeEntry (s : State) (k : Nat) (t : Nat) : State :=
  let e := sedOpen s k
  let any := e.n != 0 || e.incomplete
  let s := if any then
      let gap := (nth s.sed.lastStart k none).map (· + sedPeriod k) != some e.start
      let w := sedWritten s k
      let s := writeBytes s (sedBase k + w % sedRing k * sedSize k) (entryBytes k e w gap)
      updSed s (fun d =>
        { d with written := upd d.written k (· + 1), lastStart := upd d.lastStart k (fun _ => some e.start) })
    else s
  let s := closeSel s k any
  let s := if any && decide (k < 2) then
      updOpen s (k + 1) (fun o =>
        { o with n := Nat.min (o.n + e.n) 0xFFFFFFFF, incomplete := o.incomplete || e.incomplete, qual := maxQual o.qual e.qual,
                 cnt := addCounts (sedWidth (k + 1)) o.cnt e.cnt })
    else s
  updOpen s k (fun _ => .empty (sedBoundary k t))

/-- Every open entry whose period has ended by t closes, S1 first. -/
def sedRoll (s : State) (t : Nat) : State :=
  strNums.foldl (fun s k => if (sedOpen s k).start + sedPeriod k ≤ t then closeEntry s k t else s) s

/-- A write of `SED_QADDR` is turned away: PD17 off, or in a retention other than that of WATCH (R411; 06 R237). -/
def sedQueryDark (s : State) : Bool :=
  match pdLevel s 17 with
  | .off => true
  | .ret => s.pwr.st != .watch && !(pastAp1 s == some .watch)
  | _ => false

/-- The sediment buffer takes roll-ups: PD17 is powered, or in the retention of WATCH, which R407 lifts. -/
def sedLive (s : State) : Bool := !sedQueryDark s

/-- A result counts in the open entry whose period contains its stamp (R404) (DEDUCED, log 67). -/
def sedCount (s : State) (st : Stamp) (label : Nat) : State :=
  if !sedLive s then s
  else
    let s := sedRoll s st.dt
    if st.dt < (sedOpen s 0).start then s
    else updOpen s 0 (fun e =>
      { e with n := Nat.min (e.n + 1) 0xFFFFFFFF, qual := maxQual e.qual st.qual,
               cnt := if label < 64 then upd e.cnt label (satInc 0xFF) else e.cnt })

/-- A skip or an overrun falls in the open period (R403). -/
def sedIncomplete (s : State) : State :=
  if !sedLive s then s else updOpen (sedRoll s (dtNow s)) 0 (fun e => { e with incomplete := true })

/-- Open entries discarded: the next entries carry GAP (R413). -/
def sedDiscard (s : State) : State :=
  let t := dtNow s
  let s := updSed s (fun d =>
    { d with opens := strNums.map (fun k => .empty (sedBoundary k t)), lastStart := many 3 none, qaddr := 0, sel := none,
             selBad := true, pbusy := false, pdata := 0, pstat := 0b001, ppeer := false, plate := false })
  strNums.foldl syncOpen s

/-- The strata wiped: `SEQ` restarts at 0. -/
def sedWipe (s : State) : State :=
  sedDiscard (updSed (zeroRange s 0x20000000 0x20200000) (fun d => { d with written := many 3 0 }))

/-! ### Host queries (R409 to R411) -/

/-- Words of an entry. -/
def sedWords (k : Nat) : Nat := sedSize k / 4

/-- A prefetch of the selected word starts. -/
def sedPrefetch (s : State) : State :=
  updSed s (fun d => { d with pbusy := true, ppeer := false, plate := removedByEntry s 17 })

/-- The selected entry has been overwritten by a roll-up. -/
def selLost (s : State) : Bool :=
  match s.sed.sel with
  | some k => decide (k + sedRing (qStr s) < sedWritten s (qStr s))
  | none => false

/-- The query names no word: AGE names no entry, the entry was overwritten, WORD lies beyond it (R410). -/
def queryBad (s : State) : Bool := s.sed.selBad || selLost s || decide (sedWords (qStr s) ≤ qWord s)

/-- The address of the selected word. -/
def queryAddr (s : State) : Nat :=
  let k := qStr s
  match s.sed.sel with
  | some w => sedBase k + w % sedRing k * sedSize k + 4 * qWord s
  | none => sedOpenAddr k + 4 * qWord s

/-- A write of `SED_QADDR` (R409). -/
def sedQaddrAct (v : Word) : RegAct := fun s =>
  if sedQueryDark s then (s, stOff)
  else
    let w := writeReg [⟨31, 30, .rw, 0, 2⟩, ⟨29, 29, .rw, 0, 1⟩, ⟨27, 16, .rw, 0, 0xFFF⟩, ⟨6, 0, .rw, 0, 127⟩] s.sed.qaddr v
    let k := bits w 31 30
    let age := bits w 27 16
    let n := sedWritten s k
    let bad := !bit w 29 && decide (Nat.min (sedRing k) n ≤ age)
    let sel := if bit w 29 || bad then none else some (n - 1 - age)
    (sedPrefetch (updSed s (fun d => { d with qaddr := w, sel, selBad := bad })), stOk)

/-- What a read of `SED_QDATA` returns: status and data (R410, R411). -/
def sedQdataView (s : State) : Nat × Word :=
  if sedQueryDark s then (stOff, 0)
  else if s.sed.pbusy then (stBusy, 0)
  else if queryBad s then (stAddr, 0)
  else if s.sed.pstat = 0 then (stOk, s.sed.pdata)
  else (s.sed.pstat.toNat, 0)

/-- The side effect of that read: WORD advances and the next prefetch starts, unless BUSY or ADDR_ERR was returned. -/
def sedQdataStep (s : State) : State :=
  let st := (sedQdataView s).1
  if st = stBusy ∨ st = stAddr then s
  else sedPrefetch (updSed s (fun d => { d with qaddr := setBits d.qaddr 6 0 (qWord s + 1) }))

/-- SED_PREFETCH_DONE (R410): the word, or the status that stands for it. -/
def execSedPrefetchDone (s : State) : Host.Outcome State Fault Refusal :=
  if !s.sed.pbusy then .next s
  else
    let a := queryAddr s
    let st := if s.sed.ppeer then stPeer
      else if s.sed.plate || pdDark s 17 || removedByEntry s 17 || s.wiping.contains .sed then stOff
      else if queryBad s then stAddr
      else if eccHit s a 4 then stEcc
      else stOk
    .next (updSed s (fun d =>
      { d with pbusy := false, pstat := BitVec.ofNat 3 st, pdata := if st = stOk then readWord s a else 0 }))

/-- SEDIMENT_CLOSE (R405): DT has passed the end of a period. -/
def execSedimentClose (s : State) : Host.Outcome State Fault Refusal :=
  if sedLive s && !(islSt s 54).held then
    let s := instant s
    .next (sedRoll s (dtNow s))
  else .next s

/-! ### Registers of the SCE (R388, R412) -/

/-- `SCE_TINF` x T_SCE + 2 us ≤ `SCE_PER`, with T_SCE = 63.78 ns (R388), in units of 10 ps. -/
def sceFits (c : Sce) : Bool := decide (c.tinf * 6378 + 200000 ≤ bits c.per 19 0 * 100000)

/-- A write of `SCE_CTRL` (DEDUCED, log 68). -/
def sceCtrlWrite (v : Word) (c : Sce) : Sce :=
  let c := { c with fault := c.fault && !bit v 29, minconf := bits v 15 8, ldb := bits v 7 4 }
  if !bit v 31 then { c with run := false, runerr := false }
  else if c.loaded && sceFits c then { c with run := true, runerr := false }
  else { c with runerr := true }

/-- A write of a register of I20. -/
def sceWrite (off : Nat) (v : Word) : RegAct := fun s =>
  let set := fun (f : Sce → Sce) => (updSce s f, stOk)
  if off = 0x100 then set (sceCtrlWrite v)
  else if off = 0x104 then
    set (fun c => if c.run then c else { c with per := writeReg [⟨19, 0, .rw, 4000, 1000000⟩] c.per v })
  else if off = 0x108 then
    set (fun c =>
      let w := writeReg [⟨31, 16, .rw, 0, 0xFFFF⟩, ⟨15, 10, .rw, 0, 63⟩, ⟨9, 8, .rw, 0, 2⟩, ⟨3, 0, .rw, 6, 10⟩] c.inp v
      { c with inp := if c.run then setBits w 3 0 (bits c.inp 3 0) else w })
  else if off = 0x10C then set (fun c => { c with wake0 := v })
  else if off = 0x110 then set (fun c => { c with wake1 := v })
  else if 0x114 ≤ off ∧ off ≤ 0x12C ∧ off % 4 = 0 then (s, stOk)
  else (s, stAddr)

/-- A read of a register of I20. -/
def sceRead (s : State) (off : Nat) : Option Word :=
  let c := s.sce
  if off = 0x100 then
    some (mkWord [(31, 1, b2n c.run), (30, 1, b2n c.runerr), (29, 1, b2n c.fault), (8, 8, c.minconf), (4, 4, c.ldb)])
  else if off = 0x104 then some c.per
  else if off = 0x108 then some c.inp
  else if off = 0x10C then some c.wake0
  else if off = 0x110 then some c.wake1
  else if off = 0x114 then some (mkWord [(31, 1, b2n c.loaded), (16, 5, c.model), (8, 1, b2n c.slot)])
  else if off = 0x118 then some (mkWord [(0, 16, c.tinf)])
  else if off = 0x11C then some (mkWord [(16, 16, c.results), (8, 8, c.skips), (0, 8, c.overruns)])
  else if off = 0x120 then some c.mark0
  else if off = 0x124 then some c.mark1
  else if off = 0x128 then some c.mark2
  else if off = 0x12C then some c.marks
  else none

/-- `SILT_CTX` and `SILT_EVT`. -/
def siltCtx (s : State) : Word :=
  mkWord [(24, 8, s.sce.label.toNat), (16, 8, s.sce.top.toNat), (8, 8, s.sce.conf.toNat), (0, 8, s.sce.rseq)]

def siltEvt (s : State) : Word := mkWord [(24, 8, s.sce.wclass.toNat), (0, 5, s.sce.evt.toNat)]

/-- A write of `SILT_EVT`. -/
def siltEvtAct (v : Word) : RegAct := okAct (fun s => updSce s (fun c => { c with evt := c.evt &&& ~~~(v.setWidth 5) }))

/-- What the SCE keeps when PD3 and PD4 lose power: the shadows of `SILT_CTX` and `SILT_EVT` (R411). -/
def scePowerOff (s : State) : State :=
  updSce s (fun c =>
    { Sce.reset with label := c.label, top := c.top, conf := c.conf, rseq := c.rseq, wclass := c.wclass, evt := c.evt })

/-! ### Inference (R389 to R399) -/

/-- Addresses of the SCE SRAM regions (R386). -/
def sceInput : Nat := 0x28000000
def sceModel : Nat := 0x28001000
def sceResult : Nat := 0x2807F700
def scePcm : Nat := 0x2807F800

/-- The channels gathered. -/
def sceChans (c : Sce) : List Nat := chNums.filter (fun n => bit c.inp (16 + n))

/-- The values of one channel, oldest first, padded with its first value (R390). -/
def gatherChan (ch : Chan) (w : Nat) : List (BitVec 16) :=
  let last := (ch.hist.take (w + 1)).reverse
  many (w + 1 - last.length) (ch.first.getD 0) ++ last

/-- The last n PCM samples, oldest first. -/
def gatherPcm (s : State) (n : Nat) : List Byte :=
  ((List.range n).map (fun i => readBytes s (scePcm + (s.sce.pcmPos + 1024 - n + i) % 1024 * 2) 2)).flatten

/-- The input tensor. -/
def gatherInput (s : State) : List Byte :=
  let w := bits s.sce.inp 15 10
  let chans := ((sceChans s.sce).map (fun n => ((gatherChan (chanSt s n) w).map (fun x => leBytes 2 x.toNat)).flatten)).flatten
  chans ++ (if bits s.sce.inp 9 8 = 0 then [] else gatherPcm s (2 ^ bits s.sce.inp 3 0))

/-- An event flag of `SILT_EVT` set. -/
def siltFlag (s : State) (k : Nat) : State := updSce s (fun c => { c with evt := c.evt ||| BitVec.ofNat 5 (2 ^ k) })

/-- INFERENCE_START (R389 to R394): an overrun, a skip, or the input gathered and the model's lane begun. -/
def execInferenceStart (u : Nat) (s : State) : Host.Outcome State Fault Refusal :=
  let c := s.sce
  if !(pdOn s 3 && pdOn s 4 && c.run && decide (0 < bits c.per 19 0) && u % bits c.per 19 0 == 0 && !(islSt s 20).held) then
    .next s
  else
    let s := instant (askFio s)
    if c.busy then
      .next (siltFlag (updSce (sedIncomplete s) (fun c => { c with overruns := satInc 0xFF c.overruns })) 4)
    else
    let s := updSce s (fun c => { c with aud := bits c.inp 9 8 })
    if (sceChans c).any (fun n => (chanSt s n).verdict == vStale || (chanSt s n).verdict == vFault) then
      .next (siltFlag (updSce (sedIncomplete s) (fun c => { c with skips := satInc 0xFF c.skips })) 3)
    else
      let st := now s
      let t := writeBytes (stamped s) sceInput (gatherInput s)
      let t := updSce t (fun c => { c with busy := true, start := st })
      .next (updEng t .sce (fun e =>
        { e with cur := some { entry := 0, index := 0, base := c.cbase, off := 0, ncmd := c.ncmd, stage := .ready, cov := [],
                               resv := [], ins := [], wbuf := [], adapt := none } }))

/-- The top class of 64 confidences (R397). -/
def topClass (cs : List Nat) : Nat := (List.range 64).foldl (fun b k => if nth cs b 0 < nth cs k 0 then k else b) 0

/-- The class wakes the device (R399). -/
def wakeClass (c : Sce) (l : Nat) : Bool := if l < 32 then bit c.wake0 l else if l < 64 then bit c.wake1 (l - 32) else false

/-- A result: the latest result's fields and the label's run (R397, R398). -/
def takeResult (c : Sce) (cs : List Nat) : Sce :=
  let top := topClass cs
  let conf := nth cs top 0
  let lab : Byte := if c.minconf ≤ conf then BitVec.ofNat 8 top else 0xFF
  { c with busy := false, results := (c.results + 1) % 2 ^ 16, rseq := (c.rseq + 1) % 256, top := lab,
           conf := BitVec.ofNat 8 conf, cand := lab, candRun := if c.cand == lab then satInc 16 c.candRun else 1 }

/-- The label changes once its run is long enough; a change is an event, a change to an enabled class a wake (R398, R399). -/
def applyLabel (s : State) : State :=
  let c := s.sce
  let l := c.cand
  if c.ldb + 1 ≤ c.candRun ∧ l ≠ c.label then
    let wake := wakeClass c l.toNat
    let t := updSce s (fun c =>
      { c with label := l, evt := c.evt ||| (if wake then 0b00011 else 0b00010), wclass := if wake then l else c.wclass })
    let t := raiseInt t intSilt
    if wake then fireWake t wakeSilt false else t
  else s

/-- INFERENCE_DONE (R396 to R399, R404): the lane has ended; the result goes to Hardpan, the label and the sediment. -/
def execInferenceDone (s : State) : Host.Outcome State Fault Refusal :=
  if s.sce.busy && (engSt s .sce).cur.isNone then
    let s := instant s
    let cs := (readBytes s sceResult 64).map BitVec.toNat
    let t := writeBytes s (sceResult + 64) (leBytes 8 s.sce.start.dt)
    let t := updSce t (fun c => takeResult c cs)
    let t := updHp t (fun h => { h with conf := cs, sceIn := true })
    let t := sedCount t s.sce.start t.sce.top.toNat
    .next (applyLabel t)
  else .next s

/-- The SCE stops with a fault (R384). -/
def sceStop (s : State) (code cas : Byte) (off : Nat) : State :=
  let t := updSce s (fun c => { c with run := false, fault := true, busy := false })
  let t := siltFlag (updEng t .sce (fun e => { e with cur := none, faults := satInc 0xFFFFFFFF e.faults })) 2
  storeRec t { plainRec t code cas 20 7 with offset := BitVec.ofNat 32 off }

/-! ### PCM (08 R342, R392) -/

/-- A PDM input produces PCM: its clock runs, its signals are selected on pins the front end sees. -/
def pdmLive (s : State) (p : Nat) : Bool :=
  pdOn s 2 && bits s.sns.buscfg 19 18 != 0 && [Sig.pdmClk, .pdmD p].all (sigLive s)

/-- PCM_SAMPLE (R392, 08 R342): a PCM sample enters the window of every channel on the input, and the PCM ring when the `AUD` of the last
inference start selects the input (R412). -/
def execPcmSample (p : Fin 2) (v : BitVec 16) (changed : Bool) (s : State) : Host.Outcome State Fault Refusal :=
  if !pdmLive s p.val then .next s
  else
    let t := updSns s (fun f => { f with chans := f.chans.map (fun c =>
      if chEn c && chSrc c == 10 + p.val then
        { c with pdmSum := c.pdmSum + v.toInt.natAbs, pdmNum := c.pdmNum + 1, pdmChg := c.pdmChg || changed }
      else c) })
    if s.sce.aud = p.val + 1 ∧ pdOn s 4 then
      .next (updSce (writeBytes t (scePcm + 2 * s.sce.pcmPos) (leBytes 2 v.toNat))
        (fun c => { c with pcmPos := (c.pcmPos + 1) % 1024 }))
    else .next t

/-- SED_QADDR_WRITE (R409). -/
def execSedQaddrWrite (f : Fr) (v : Word) (s : State) : Host.Outcome State Fault Refusal := .next (wframe f 0x64 v (sedQaddrAct v) s)

end Sys2Proof.Machine
end

