-- ==== Sys2Proof/Machine/Queue.lean ====
section
/-! DEFINITION. Hardware queues and their pointers, drops, streams and their charges, sync counters, the supervisor event queue
(chapter 11). -/

namespace Sys2Proof.Machine

open Sys2Proof

/-! ### Descriptor (R414, R415, R420, R421) -/

def clsUnused : Nat := 0
def clsCmd : Nat := 1
def clsData : Nat := 2
def clsSrc : Nat := 3
def clsSink : Nat := 4
def clsEvt : Nat := 5
def scPlain : Nat := 0
def scTxn : Nat := 1
def scJob : Nat := 2

/-- Depth D, item size S, and the modulus of the pointers. -/
def QDesc.depth (d : QDesc) : Nat := 2 ^ (d.ldepth + 1)
def QDesc.item (d : QDesc) : Nat := 2 ^ (d.isize + 4)
def QDesc.ring (d : QDesc) : Nat := 2 ^ (d.ldepth + 2)

/-- A difference of pointers. -/
def QDesc.diff (d : QDesc) (a b : Nat) : Nat := (a + d.ring - b % d.ring) % d.ring

/-- A pointer moved on. -/
def QDesc.plus (d : QDesc) (a n : Nat) : Nat := (a + n) % d.ring

def QDesc.occ (d : QDesc) : Nat := d.diff d.wp d.fp
def QDesc.vis (d : QDesc) : Nat := d.diff d.pp d.rp

/-- Address of the item that pointer x addresses. -/
def QDesc.addr (d : QDesc) (x : Nat) : Nat := 0x10000000 + d.base * 256 + x % d.depth * d.item

/-- Addresses of the n items from pointer x on. -/
def QDesc.addrs (d : QDesc) (x n : Nat) : List Nat := (List.range n).map (fun i => d.addr (d.plus x i))

/-- A TSR bank that holds one of the n items from pointer x on is held in reset: they cannot be moved (05 R713). -/
def itemsHeld (s : State) (d : QDesc) (x n : Nat) : Bool := (d.addrs x n).any (fun a => rangeHeld s a d.item)

/-- The queue's storage meets [lo, hi). -/
def QDesc.storedIn (d : QDesc) (lo hi : Nat) : Bool := meets (0x10000000 + d.base * 256) (d.depth * d.item) lo hi

/-- Space held by output reservations: of engines, and of CSI-2 filters with a frame in progress (R421, 17 R677). -/
def rsvOf (s : State) (q : Nat) : Nat :=
  let lanes := (s.engs.map (fun e =>
    match e.cur with
    | some l => look l.resv q 0
    | none => 0)).foldl (· + ·) 0
  let csis := (s.csis.map (fun c => ((List.range 4).map (fun f =>
    match nth c.open_ f none with
    | some fr => if bits (nth c.f0 f 0) 13 0 = q then fr.items else 0
    | none => 0)).foldl (· + ·) 0)).foldl (· + ·) 0
  lanes + csis

/-- FREE = D − OCC − RSV. -/
def qFree (s : State) (q : Nat) : Nat := (qd s q).depth - (qd s q).occ - rsvOf s q

/-- A request for n items on queue q can be granted: at once on a DROP_OLDEST queue (12 R516), else when the space is free. -/
def grantable (s : State) (q n : Nat) : Bool := (qd s q).ovf || decide (n ≤ qFree s q)

/-- A whole descriptor written: its four words have valid check bits (05 R711). -/
def storeQd (s : State) (q : Nat) (d : QDesc) : State := clearEcc (setQd s q d) (qdtAddr q 0) (qdtAddr q 4)

/-- A descriptor changed. -/
def updQd (s : State) (q : Nat) (f : QDesc → QDesc) : State := setQd s q (f (qd s q))

/-! ### Items -/

/-- The next item that a consumer reads. -/
def nextItem (s : State) (q : Nat) : List Byte := readBytes s ((qd s q).addr (qd s q).rp) (qd s q).item

/-- n items consumed: RP moves on, and FP with it unless the queue is TXN (R423). -/
def QDesc.consume (d : QDesc) (n : Nat) : QDesc :=
  let r := d.plus d.rp n
  { d with rp := r, fp := if d.scope = scTxn then d.fp else r }

/-- A drop is counted (R432). -/
def countDrop (s : State) (q : Nat) : State :=
  updQm s (fun m => { m with dropCnt := satInc 0xFFFFFFFF m.dropCnt, dropLast := BitVec.ofNat 14 q })

/-- An item written at WP; PP follows unless the queue is TXN. -/
def putItem (s : State) (q : Nat) (bs : List Byte) : State :=
  let d := qd s q
  let t := writeBytes s (d.addr d.wp) bs
  updQd t q (fun d =>
    let w := d.plus d.wp 1
    { d with wp := w, pp := if d.scope = scTxn then d.pp else w })

/-! ### Runs of egress queues (07 R301, R304) -/

/-- The runs of a queue. -/
def runsOf (s : State) (q : Nat) : List Run := look s.qm.runs q []

/-- A queue's runs set; one without items left and without a mark is over. -/
def setRuns (s : State) (q : Nat) (rs : List Run) : State :=
  updQm s (fun m => { m with runs := put [] m.runs q (rs.filter (fun r => r.left != 0 || r.mark.isSome)) })

/-- k items are taken from the oldest runs, sent or dropped. -/
def takeRuns (rs : List Run) (k : Nat) : List Run :=
  match rs with
  | [] => []
  | r :: t => { r with left := r.left - k } :: takeRuns t (k - r.left)

/-- A producer writes an item: to a full DROP_OLDEST queue the oldest item that is published and unsent makes room, or the
new one is dropped (R432). -/
def pushItem (s : State) (q : Nat) (bs : List Byte) : State :=
  let d := qd s q
  if d.ovf && decide (d.depth ≤ d.occ) then
    let s := countDrop s q
    if d.fp = d.rp ∧ d.rp ≠ d.pp then
      putItem (setRuns (updQd s q (fun d => { d with fp := d.plus d.fp 1, rp := d.plus d.rp 1 })) q (takeRuns (runsOf s q) 1)) q bs
    else s
  else putItem s q bs

/-- Items written in order. -/
def pushItems (s : State) (q : Nat) (items : List (List Byte)) : State := items.foldl (fun t i => pushItem t q i) s

/-- A byte row cut into items of n bytes. -/
def cutItems (n : Nat) : Nat → List Byte → List (List Byte)
  | 0, _ => []
  | k + 1, bs => bs.take n :: cutItems n k (bs.drop n)

/-- Everything written is visible. -/
def publish (s : State) (q : Nat) : State := updQd s q (fun d => { d with pp := d.wp })

/-! ### Streams (R453 to R458) -/

/-- The queue's bank group. -/
def bankGroup (d : QDesc) : Nat := d.base * 256 / 0x200000

/-- Charges of the open streams on bank group g, on tile link l (R456). -/
def bgCharge (s : State) (g : Nat) : Nat :=
  ((s.qm.streams.filter (fun q => bankGroup (qd s q) == g)).map (fun q => 2 * (qd s q).rbw)).foldl (· + ·) 0

def linkCharge (s : State) (l : Nat) : Nat :=
  ((s.qm.streams.filter (fun q => (qd s q).tlink == l + 1)).map (fun q => (qd s q).rbw)).foldl (· + ·) 0

/-- Admission limits at an operating point, in tenths of 0.25 GB/s (R453). -/
def bgLimit (op : Nat) : Nat := if op = 0 then 1792 else if op = 1 then 4480 else if op = 2 then 7168 else 8960
def linkLimit : Nat := 896

/-- Every charge lies within its limit at an operating point. -/
def chargesFit (s : State) (op : Nat) : Bool :=
  [0, 1, 2, 3].all (fun g => 10 * bgCharge s g ≤ bgLimit op) && [0, 1].all (fun l => 10 * linkCharge s l ≤ linkLimit)

/-- The lower of the present operating point and any recorded one (R457). -/
def opLow (s : State) : Nat := Nat.min s.pwr.opCur s.pwr.opTgt

/-- The result of a stream request recorded. -/
def streamRes (s : State) (q r : Nat) : State :=
  updQm s (fun m => { m with resResult := BitVec.ofNat 3 r, resQid := BitVec.ofNat 14 q })

/-- A stream opened when the queue is valid with RBW ≠ 0, not open yet, and its charges fit (R457). -/
def openStream (s : State) (q : Nat) : State :=
  let d := qd s q
  if d.cls = clsUnused ∨ d.rbw = 0 then streamRes s q 2
  else if s.qm.streams.contains q then streamRes s q 3
  else
    let t := updQm s (fun m => { m with streams := m.streams ++ [q] })
    if chargesFit t (opLow s) then streamRes t q 0 else streamRes s q 1

/-- A stream closed (R458). -/
def closeStream (s : State) (q : Nat) : State :=
  if s.qm.streams.contains q then streamRes (updQm s (fun m => { m with streams := m.streams.filter (· != q) })) q 0
  else streamRes s q 4

/-- A queue becomes unused: its stream closes and its items are gone (15 R623). -/
def dropQueue (s : State) (q : Nat) : State :=
  storeQd (setRuns (updQm s (fun m => { m with streams := m.streams.filter (· != q) })) q []) q .unused

/-! ### The supervisor event queue (R462 to R465) -/

/-- Items of Q16383. -/
def evDepth : Nat := 256

/-- Q16383's descriptor as ROM firmware sets it up; its `BASE` reads 0 (DEDUCED, log 24). -/
def evDesc : QDesc := { QDesc.unused with ldepth := 7, isize := 0, cls := clsEvt, scope := scPlain }

/-- Firmware has consumed some events since the last write (DESIGN CHOICE, log 5). -/
def evConsume (s : State) : State :=
  let n := Nat.min (Config.eventsConsumed s.qm.evK) s.qm.evq.length
  let s := updQm s (fun m => { m with evq := m.evq.drop n, evK := m.evK + 1 })
  updQd s 16383 (fun d => d.consume n)

/-- An event may be written: an ordinary one only while at least 64 items are free. -/
def evFits (m : Qm) (ordinary : Bool) : Bool :=
  if ordinary then decide (m.evq.length + 64 ≤ evDepth) else decide (m.evq.length < evDepth)

/-- The first pending event that may be written is written. -/
def evWrite (s : State) : State :=
  let s := evConsume s
  match s.qm.evPend.find? (fun e => evFits s.qm e.1) with
  | none => s
  | some e =>
    let s := updQm s (fun m => { m with evq := m.evq ++ [e.2], evPend := m.evPend.erase e })
    updQd s 16383 (fun d => { d with wp := d.plus d.wp 1, pp := d.plus d.wp 1 })

/-- An event is raised: it is written when it fits, else it waits. -/
def addEvent (s : State) (ordinary : Bool) (e : Event) : State :=
  evWrite (updQm s (fun m => { m with evPend := m.evPend ++ [(ordinary, e)] }))

/-- EVENT_QUEUE_WRITE (R462). -/
def execEventQueueWrite (s : State) : Host.Outcome State Fault Refusal :=
  if s.qm.evPend.isEmpty || !islRuns s 24 then .next s else .next (evWrite s)

/-! ### Registers (R471) -/

/-- A read of a register of I24. -/
def qmRead (s : State) (off : Nat) : Option Word :=
  let m := s.qm
  if off = 0x100 then some 0
  else if off = 0x104 then some (mkWord [(18, 14, m.streams.length), (14, 3, m.resResult.toNat), (0, 14, m.resQid.toNat)])
  else if off = 0x110 ∨ off = 0x114 ∨ off = 0x118 ∨ off = 0x11C then some (mkWord [(0, 16, bgCharge s ((off - 0x110) / 4))])
  else if off = 0x120 ∨ off = 0x124 then some (mkWord [(0, 16, linkCharge s ((off - 0x120) / 4))])
  else if off = 0x130 then some (mkWord [(0, 8, m.sstall)])
  else if off = 0x134 then some (mkWord [(31, 1, b2n m.sstallValid), (0, 14, m.sstallQid.toNat)])
  else if off = 0x138 then some (BitVec.ofNat 32 m.dropCnt)
  else if off = 0x13C then some (mkWord [(0, 14, m.dropLast.toNat)])
  else none

/-- A write of a register of I24. -/
def qmWrite (off : Nat) (v : Word) : RegAct := fun s =>
  if off = 0x100 then
    (if bits v 31 30 = 1 then openStream s (bits v 13 0) else if bits v 31 30 = 2 then closeStream s (bits v 13 0) else s, stOk)
  else if off = 0x130 then (updQm s (fun m => { m with sstall := bits v 7 0 }), stOk)
  else if off = 0x134 then (updQm s (fun m => { m with sstallValid := m.sstallValid && !bit v 31 }), stOk)
  else if (qmRead s off).isSome then (s, stOk)
  else (s, stAddr)

/-- A read of a register of I25. -/
def scRead (s : State) (off : Nat) : Option Word :=
  if off = 0x100 then some (mkWord [(0, 16, s.scTmo)])
  else if 0x1000 ≤ off ∧ off < 0x3000 ∧ off % 4 = 0 then
    let c := scSt s ((off - 0x1000) / 8)
    if off % 8 = 0 then some (mkWord [(31, 1, b2n c.valid), (30, 1, b2n c.job), (0, 5, c.tmo)]) else some c.val
  else none

/-- A write of a register of I25: every field is RO. -/
def scWrite (off : Nat) : RegAct := fun s => (s, if (scRead s off).isSome then stOk else stAddr)

/-- A word of the QDT. -/
def qdtWord (s : State) (a : Nat) : Word := (qd s ((a - 0x30000000) / 16)).word (a / 4 % 4)

/-! ### Sink stalls (R470) -/

/-- The request for output space that an engine stands stalled on. -/
def stallReq (g : EngSt) : List (Nat × Nat) :=
  match g.cur with
  | some l => (match l.stage with
    | .stallOut req => req
    | _ => [])
  | none => []

/-- An engine stands stalled on the full queue q: its request asks for more space there than is free. -/
def stalledOn (s : State) (q : Nat) : Bool :=
  s.engs.any (fun g => (stallReq g).any (fun x => x.1 == q && !grantable s q x.2))

/-- A producer is stalled on a full STALL SINK queue (R445). -/
def sinkStalled (s : State) : Bool :=
  s.engs.any (fun g => (stallReq g).any (fun x => (qd s x.1).cls == clsSink && !grantable s x.1 x.2))

/-- SINK_STALL_TIMEOUT (R470): the stall has lasted `TMS` ms; it is reported once. -/
def execSinkStallTimeout (q : BitVec 14) (s : State) : Host.Outcome State Fault Refusal :=
  let d := qd s q.toNat
  if islRuns s 24 && stalledOn s q.toNat && d.cls == clsSink && !d.ovf && s.qm.sstall != 0 && !s.qm.reported.contains q.toNat then
    .next (raiseInt (updQm s (fun m =>
      { m with reported := m.reported ++ [q.toNat], sstallQid := if m.sstallValid then m.sstallQid else q,
               sstallValid := true })) intSinkStall)
  else .next s

/-- A stall on q has ended: a later one is reported again. -/
def stallEnded (s : State) : State := updQm s (fun m => { m with reported := m.reported.filter (stalledOn s) })

end Sys2Proof.Machine
end

