-- ==== Sys2Proof/Machine/Jobs.lean ====
section
/-! DEFINITION. Jobs and the commit ledger (chapter 14): descriptors and admission, ownership, faults and restarts, commits; sync
counters of a job (11 R423 to R427, R440). -/

namespace Sys2Proof.Machine

open Sys2Proof

/-! ### Objects of a job (R424, R425, R565) -/

/-- The image that an entry runs. -/
def entryImg (s : State) (e : Entry) : Img := (slotSt s e.model e.slotB).img

/-- The queue that a QID in a job stands for: port p of the job is named by 16,368 + p; none when it is not bound (R566). -/
def portQueue (e : Entry) (q : Nat) : Option Nat :=
  if 16368 ≤ q ∧ q < 16376 then
    let b := nth e.ports (q - 16368) ⟨false, 0, 0⟩
    if b.valid then some b.qid else none
  else some q

/-- The queues that the job's lanes write, and those they read. -/
def prodQs (s : State) (e : Entry) : List Nat := (entryImg s e).produces.filterMap (portQueue e)

def consQs (s : State) (e : Entry) : List Nat := (entryImg s e).consumes.filterMap (portQueue e)

/-- What a job owns: an end of a TXN queue, a JOB queue, a JOB counter. -/
inductive Obj where
  | prod (q : Nat)
  | cons (q : Nat)
  | jobQ (q : Nat)
  | jobC (n : Nat)
  deriving DecidableEq, Repr

/-- The objects of R424 that the entry's image uses. -/
def objsOf (s : State) (e : Entry) : List Obj :=
  ((prodQs s e).filterMap (fun q =>
    if (qd s q).scope = scTxn then some (.prod q) else if (qd s q).scope = scJob then some (.jobQ q) else none)) ++
  ((consQs s e).filterMap (fun q =>
    if (qd s q).scope = scTxn then some (.cons q) else if (qd s q).scope = scJob then some (.jobQ q) else none)) ++
  ((entryImg s e).sems.filterMap (fun n => if (scSt s n).job then some (.jobC n) else none))

/-- The place of an entry in ledger order. -/
def ledgerPos (s : State) (i : Nat) : Nat := (i + 256 - s.ldg.head % 256) % 256

/-- Entry numbers. -/
def entryNums : List Nat := List.range 256

/-- The bound input ports of an entry whose queues are TXN (R582). -/
def relPorts (s : State) (e : Entry) : List PortBind := (e.ports.take 4).filter (fun b => b.valid && (qd s b.qid).scope == scTxn)

/-- The objects that an entry asks for: those its image uses; a rejected job never runs (R570) and asks for the consuming ends alone
from which its commit releases items (R582), so that no item moves under a later job that reads the queue (R428; DEDUCED, log 25). -/
def askedObjs (s : State) (e : Entry) : List Obj :=
  match e.st with
  | .free => []
  | .rejected => (relPorts s e).map (fun b => .cons b.qid)
  | _ => objsOf s e

/-- The entry that owns an object: the earliest in ledger order that asks for it (R572). -/
def ownerOf (s : State) (o : Obj) : Option Nat :=
  ((List.range 256).map (fun k => (s.ldg.head + k) % 256)).find? (fun i => (askedObjs s (entrySt s i)).contains o)

/-- The entry owns every object it uses. -/
def ownsAll (s : State) (i : Nat) : Bool := (objsOf s (entrySt s i)).all (fun o => ownerOf s o == some i)

/-! ### Lanes on engines (12 R474, R475) -/

/-- The command word at a lane's present command. -/
def laneOpc (s : State) (l : Lane) : Byte := readByte s (l.base + l.off)

/-- The engine's status registers show its current lane and command. -/
def showLane (s : State) (e : Eng) : State :=
  match (engSt s e).cur with
  | none => s
  | some l =>
    let job := (entrySt s l.entry).job
    let opc := laneOpc s l
    updEng s e (fun g => { g with opc, job, pc := BitVec.ofNat 32 l.off })

/-- An idle engine takes the next lane dispatched to it, unless it is held in reset. -/
def nextLane (s : State) (e : Eng) : State :=
  match (engSt s e).cur, (engSt s e).wait with
  | none, l :: r =>
    if (islSt s (engIsl e)).held then s else showLane (updEng s e (fun g => { g with cur := some l, wait := r })) e
  | _, _ => s

/-- The engine's current lane changed. -/
def setLane (s : State) (e : Eng) (f : Lane → Lane) : State := updEng s e (fun g => { g with cur := g.cur.map f })

/-- The writes of the engine's lane become visible to every other lane (12 R479). -/
def flushLane (s : State) (e : Eng) : State :=
  match (engSt s e).cur with
  | some l => setLane (l.wbuf.foldl (fun t w => writeBytes t w.1 w.2) s) e (fun l => { l with wbuf := [] })
  | none => s

/-- The lane of entry i that an engine runs, if it does. -/
def runsLane (s : State) (i : Nat) (e : Eng) : Bool :=
  match (engSt s e).cur with
  | some l => l.entry == i
  | none => false

/-- One engine gives up the lanes of entry i: those not begun are dropped, the one it runs stands in ABANDON until the transfer in
progress ends; what it wrote stands, its reservation is gone (12 R485, R516). -/
def abandonOn (i : Nat) (s : State) (e : Eng) : State :=
  let s := updEng s e (fun g => { g with wait := g.wait.filter (fun l => l.entry != i) })
  if runsLane s i e then setLane (flushLane s e) e (fun l => { l with stage := .abandon, resv := [] }) else s

/-- Every engine gives up the lanes of entry i (R485). -/
def abandonLanes (s : State) (i : Nat) : State := stallEnded (loamEngs.foldl (abandonOn i) s)

/-- An engine whose abandoned command has come to its end is idle, and takes the next lane (R485). -/
def freeAbandoned (s : State) (e : Eng) : State :=
  match (engSt s e).cur with
  | some l => if l.stage = .abandon then nextLane (updEng s e (fun g => { g with cur := none })) e else s
  | none => s

/-- Every lane of entry i has been abandoned (R576). -/
def endAbandon (s : State) (i : Nat) : State := loamEngs.foldl (fun t e => if runsLane t i e then freeAbandoned t e else t) s

/-- A lane as dispatched. -/
def freshLane (i k base ncmd : Nat) : Lane :=
  { entry := i, index := k, base, off := 0, ncmd, stage := .ready, cov := [], resv := [], ins := [], wbuf := [], adapt := none }

/-- The lanes of entry i dispatched in ascending index (15 R614). -/
def dispatchLanes (s : State) (i : Nat) : State :=
  let img := entryImg s (entrySt s i)
  img.lanes.zipIdx.foldl (fun t x =>
    nextLane (updEng t x.1.eng (fun g => { g with wait := g.wait ++ [freshLane i x.2 (img.tsr.1 + x.1.off) x.1.ncmd] })) x.1.eng) s

/-! ### Pointers and counters of a job (R423, R426, R427, R582) -/

/-- JOB queues emptied and JOB counters zeroed. -/
def clearJobObjs (s : State) (e : Entry) : State :=
  (objsOf s e).foldl (fun t o =>
    match o with
    | .jobQ q => updQd t q (fun d => { d with wp := 0, pp := 0, rp := 0, fp := 0 })
    | .jobC n => setSc t n { scSt t n with val := 0 }
    | _ => t) s

/-- WP back to PP on every producing end (nothing of the attempt is published). -/
def unwrite (s : State) (e : Entry) : State :=
  (objsOf s e).foldl (fun t o =>
    match o with
    | .prod q => updQd t q (fun d => { d with wp := d.pp })
    | _ => t) s

/-- RP back to FP on every consuming end. -/
def unread (s : State) (e : Entry) : State :=
  (objsOf s e).foldl (fun t o =>
    match o with
    | .cons q => updQd t q (fun d => { d with rp := d.fp })
    | _ => t) s

/-- The rollback of R426. -/
def rollback (s : State) (i : Nat) : State :=
  let e := entrySt s i
  updEntry (clearJobObjs (unread (unwrite s e) e) e) i (fun e => { e with defer := [], doneLanes := [] })

/-- An attempt starts: JOB objects at 0, the lanes dispatched. -/
def startAttempt (s : State) (i : Nat) : State :=
  let s := clearJobObjs s (entrySt s i)
  dispatchLanes (updEntry s i (fun e => { e with st := .running, started := true, fatal := false, doneLanes := [], defer := [] })) i

/-! ### Faults (R575, R587) -/

/-- The record of a fault of entry i. -/
def jobRec (s : State) (i : Nat) (code cas : Byte) (off isl eng : Nat) (q : Option Nat) : FltRec :=
  let e := entrySt s i
  { job := e.job, code, cas, offset := BitVec.ofNat 32 off, isl := BitVec.ofNat 6 isl, eng := BitVec.ofNat 4 eng,
    att := BitVec.ofNat 4 e.restarts, jv := true, qv := q.isSome, qid := BitVec.ofNat 14 (q.getD 0), stamp := now s }

/-- The first fault of an attempt ends it: a record, every lane abandoned, RESTARTING (R575). -/
def jobFault (s : State) (i : Nat) (r : FltRec) (fatal : Bool) : State :=
  if (entrySt s i).st = .running then
    abandonLanes (updEntry (storeRec s r) i (fun e => { e with st := .restarting, fatal })) i
  else s

/-- Codes of faults. -/
def cInversion : Byte := 0x29
def cReject : Byte := 0x2A
def cEcc : Byte := 0x10
def cPeerReset : Byte := 0x11
def cScTimeout : Byte := 0x12
def cTwaitTimeout : Byte := 0x13
def cWatchdog : Byte := 0x14
def cTileFault : Byte := 0x15

/-- A fault of a lane on an engine (12 R496, R515): counted there; the first of its attempt ends the attempt. -/
def laneFault (s : State) (e : Eng) (l : Lane) (code cas : Byte) (q : Option Nat) (fatal : Bool) : State :=
  let s := updEng s e (fun g => { g with faults := satInc 0xFFFF g.faults })
  jobFault s l.entry (jobRec s l.entry code cas l.off (engIsl e) (engIx e) q) fatal

/-- A fault that an engine raises in its current lane. -/
def engFault (s : State) (e : Eng) (code cas : Byte) (q : Option Nat) (fatal : Bool) : State :=
  match (engSt s e).cur with
  | none => s
  | some l => if l.stage = .abandon then s else laneFault s e l code cas q fatal

/-- One event faults the lanes of several engines, taken as they stood when it came: each fault is counted, each job's first one ends its
attempt (R575). -/
def faultAll (s : State) (code : Byte) (hits : List (Eng × Lane × Option Nat)) : State :=
  hits.foldl (fun t h => laneFault t h.1 h.2.1 code 0 h.2.2 false) s

/-- The lanes that engines run and a test accepts, with the queue that each names in its fault. -/
def hitLanes (s : State) (p : Eng → Lane → Bool) (q : Lane → Option Nat) : List (Eng × Lane × Option Nat) :=
  loamEngs.filterMap (fun e =>
    match (engSt s e).cur with
    | some l => if l.stage != .abandon && p e l then some (e, l, q l) else none
    | none => none)

/-- The lane of entry i stalls on queue q whose producing end a later entry owns (R574). -/
def inverted (s : State) (i q : Nat) : Bool :=
  (qd s q).scope == scTxn && (qd s q).vis == 0 &&
    (match ownerOf s (.prod q) with
     | some j => decide (ledgerPos s i < ledgerPos s j)
     | none => false)

/-- ORDER_INVERSION is raised on every engine that stands in such a stall. -/
def inversionSweep (s : State) : State :=
  loamEngs.foldl (fun t e =>
    match (engSt t e).cur with
    | some l =>
      (match l.stage with
       | .stallIn q => if inverted t l.entry q.toNat then engFault t e cInversion 0 (some q.toNat) true else t
       | _ => t)
    | none => t) s

/-! ### Submission and admission (R564 to R572) -/

/-- The sixteen words of the descriptor at RP. -/
def descWords (s : State) (q : Nat) : List Word := (chunks 4 64 (nextItem s q)).map (BitVec.ofNat 32)

/-- A reserved field or encoding is not 0 (R569 RSVD). -/
def descRsvd (ws : List Word) : Bool :=
  let w := fun k => nth ws k 0
  bits (w 0) 31 30 != 0 || bits (w 0) 22 21 == 3 || w 1 != 0 ||
    [2, 3, 4, 5].any (fun k => bit (w k) 30) || [6, 7, 8, 9].any (fun k => bits (w k) 30 14 != 0) ||
    [12, 13, 14, 15].any (fun k => w k != 0)

/-- The port bindings of a descriptor. -/
def descPorts (ws : List Word) : List PortBind :=
  [2, 3, 4, 5, 6, 7, 8, 9].map (fun k => ⟨bit (nth ws k 0) 31, bits (nth ws k 0) 29 14, bits (nth ws k 0) 13 0⟩)

/-- The slot has a region in a clay tile that has been declared failed (17 R671). -/
def slotOnFailed (s : State) (img : Img) : Bool :=
  [img.clay0, img.clay1].any (fun r =>
    r.2 != 0 && (((tileSt s .t0).failed && decide (r.1 < 0xA0000000)) || ((tileSt s .t1).failed && decide (0xA0000000 ≤ r.1))))

/-- A slot that admission may use (15 R618). -/
def slotReady (s : State) (m : Nat) (b : Bool) : Bool := (slotSt s m b).st == .ready && !slotOnFailed s (slotSt s m b).img

/-- The slot that `SLOT` names or resolves to (R571); none where no slot is active. -/
def namedSlot (s : State) (m code : Nat) : Option Bool :=
  if code = 0 then nth s.cap.active m none else if code = 1 then some false else if code = 2 then some true else none

/-- That slot, when it holds an image that admission may use. -/
def resolveSlot (s : State) (m code : Nat) : Option Bool := (namedSlot s m code).filter (slotReady s m)

/-- BAD_PORT (R569). -/
def badPort (s : State) (img : Img) (ps : List PortBind) : Bool :=
  ps.zipIdx.any (fun x =>
    let cand := nth img.ports x.2 []
    if x.1.valid then !cand.contains x.1.qid || (decide (x.2 < 4) && x.1.nrel != 0 && (qd s x.1.qid).scope != scTxn)
    else !cand.isEmpty)

/-- The first check of R569 that fails (DEDUCED, log 78). -/
def rejectReason (s : State) (ws : List Word) : Option Nat :=
  let w0 := nth ws 0 0
  if descRsvd ws then some 1
  else match resolveSlot s (bits w0 20 16) (bits w0 22 21) with
    | none => some 2
    | some b =>
      if entryNums.any (fun i => (entrySt s i).st != .free && (entrySt s i).job.toNat == bits w0 15 0) then some 3
      else if badPort s (slotSt s (bits w0 20 16) b).img (descPorts ws) then some 4
      else none

/-- The entry of a descriptor; where `SLOT` resolves to no slot, or is reserved, the slot of the entry is A (DESIGN CHOICE, log 78). -/
def entryOf (s : State) (ws : List Word) (st : JState) : Entry :=
  let w0 := nth ws 0 0
  { st, model := bits w0 20 16, slotB := (namedSlot s (bits w0 20 16) (bits w0 22 21)).getD false, restarts := 0,
    job := BitVec.ofNat 16 (bits w0 15 0), seq := s.ldg.seqNext, tagLo := nth ws 10 0, tagHi := nth ws 11 0,
    budget := bits w0 26 23, rank := bits w0 28 27, notify := bit w0 29, ports := descPorts ws, doneLanes := [],
    defer := [], started := false, fatal := false }

/-- The descriptor at RP of queue q takes the next ledger entry (R568 to R570). -/
def admitOne (s : State) (q : Nat) : State :=
  let i := (s.ldg.head + s.ldg.used) % 256
  let ws := descWords s q
  let reason := rejectReason s ws
  let off := (qd s q).rp % (qd s q).depth * (qd s q).item
  let t := updEntry s i (fun _ => entryOf s ws (if reason.isSome then .rejected else .admitted))
  let t := updLdg t (fun l => { l with used := l.used + 1, seqNext := l.seqNext + 1 })
  let t := updQd t q (fun d => d.consume 1)
  let t := match reason with
    | some r => storeRec t (jobRec t i cReject (BitVec.ofNat 8 r) off 21 8 (some q))
    | none => t
  inversionSweep t

/-- Doorbells whose descriptors have all been admitted, or whose queue is gone, leave the service list (R567). -/
def trimService (s : State) : List (Nat × Nat) → List (Nat × Nat)
  | [] => []
  | (q, p) :: r => if (qd s q).cls ≠ clsCmd ∨ (qd s q).rp = p ∨ (qd s q).vis = 0 then trimService s r else (q, p) :: r

/-- I21 and I26 run: supervisor and ledger are powered and not held in reset. -/
def admissionRuns (s : State) : Bool :=
  pdOn s 5 && pdOn s 9 && islRuns s 21 && islRuns s 26 && supReady s

/-- JOB_ADMIT (R567 to R571): the next descriptor in service is admitted, while an entry is free. -/
def execJobAdmit (s : State) : Host.Outcome State Fault Refusal :=
  let s := updLdg s (fun l => { l with service := trimService s l.service })
  match s.ldg.service with
  | [] => .next s
  | (q, _) :: _ => 
    if admissionRuns s && decide (s.ldg.used < 256) && islRuns s 24 && !itemsHeld s (qd s q) (qd s q).rp 1 then
      .next (admitOne (instant s) q)
    else .next s

/-- JOB_START (R425, R474): a job that owns every object it uses has its lanes dispatched. -/
def execJobStart (i : Fin 256) (s : State) : Host.Outcome State Fault Refusal :=
  if (entrySt s i).st == .admitted && ownsAll s i && pdOn s 5 && islRuns s 21 && islRuns s 26 then
    .next (startAttempt s i)
  else .next s

/-- JOB_RESTART (R426, R576, R577): every lane is abandoned and the rollback is done; the next attempt starts while budget remains, else FAILING. -/
def execJobRestart (i : Fin 256) (s : State) : Host.Outcome State Fault Refusal :=
  let e := entrySt s i
  if e.st == .restarting && pdOn s 5 && islRuns s 21 && islRuns s 24 && islRuns s 26 then
    let t := rollback (endAbandon s i) i
    if e.restarts < e.budget ∧ e.fatal = false then
      .next (startAttempt (updEntry t i (fun e => { e with restarts := e.restarts + 1 })) i)
    else .next (updEntry t i (fun e => { e with st := .failing }))
  else .next s

/-! ### Commit (R580 to R585) -/

/-- The port's binding table names the queue in one direction (07 R317). -/
def boundOn (p : Slip) (egress : Bool) (q : Nat) : Bool :=
  p.bind.any (fun w => bit w 31 && bit w 30 == egress && bits w 13 0 == q)

/-- A Slip port is bound to the queue for egress. -/
def egressBound (s : State) (q : Nat) : Bool := boundOn (slipSt s .slp0) true q || boundOn (slipSt s .slp1) true q

/-- What a commit of a job leaves in queue q: `n` items, and a COMMIT_MARK behind them when a port drains the queue (07 R304). -/
def addRun (s : State) (q : Nat) (job : BitVec 16) (n : Nat) (failed : Bool) : State :=
  let mark := if egressBound s q then some failed else none
  if (qd s q).cls == clsSink || egressBound s q then setRuns s q (runsOf s q ++ [⟨job, n, mark⟩]) else s

/-- The egress queues of a commit: those of the output ports, and those that the job's lanes write (R584, 07 R304); a rejected job has no
lanes. -/
def egressQs (s : State) (e : Entry) : List Nat :=
  (((e.ports.drop 4).filter (fun b => b.valid)).map PortBind.qid ++ (if e.st = .rejected then [] else prodQs s e)).eraseDups

/-- Runs of the items that an OK commit publishes, or of a FAILED or REJECTED commit that publishes none; before the pointers move. -/
def commitRuns (s : State) (e : Entry) (failed : Bool) : State :=
  (egressQs s e).foldl (fun t q =>
    addRun t q e.job (if failed || (qd t q).scope != scTxn || !(prodQs s e).contains q then 0 else (qd t q).diff (qd t q).wp (qd t q).pp) failed) s

/-- An OK commit publishes, releases and adds (R427). -/
def commitOk (s : State) (e : Entry) : State :=
  let s := (objsOf s e).foldl (fun t o =>
    match o with
    | .prod q => publish t q
    | .cons q => updQd t q (fun d => { d with fp := d.rp })
    | _ => t) s
  e.defer.foldl (fun t x => setSc t x.1 { scSt t x.1 with val := (scSt t x.1).val + BitVec.ofNat 32 x.2 }) s

/-- RP and FP set to FP + min(NREL, PP − FP). -/
def releaseItems (n : Nat) (d : QDesc) : QDesc :=
  let p := d.plus d.fp (Nat.min n (d.diff d.pp d.fp))
  { d with rp := p, fp := p }

/-- A FAILED or REJECTED commit (R582). -/
def commitBad (s : State) (e : Entry) : State :=
  let rel := relPorts s e
  let s := if e.st = .failing then clearJobObjs (unread (unwrite s e) e) e else s
  rel.foldl (fun t b => updQd t b.qid (releaseItems b.nrel)) s

/-- The head entry leaves the ledger (R583). -/
def freeEntry (s : State) (i : Nat) (e : Entry) (status : Nat) : State :=
  let s := updEntry s i (fun e => { e with st := .free, defer := [], doneLanes := [], started := false, fatal := false })
  let s := updLdg s (fun l =>
    { l with head := (l.head + 1) % 256, used := l.used - 1, lastRestarts := e.restarts, lastStatus := status, lastJob := e.job,
             commits := l.commits + 1, rejects := if status = 2 then satInc 0xFFFF l.rejects else l.rejects,
             fails := if status = 1 then satInc 0xFFFF l.fails else l.fails })
  if e.notify then raiseInt s intCommit else s

/-- The head entry commits (R581 to R584). -/
def commitHead (s : State) (i : Nat) (e : Entry) : State :=
  let s := if e.st = .done ∨ e.st = .failing ∨ e.st = .rejected then instant s else s
  match e.st with
  | .done => inversionSweep (freeEntry (commitOk (commitRuns s e false) e) i e 0)
  | .failing => inversionSweep (freeEntry (commitBad (commitRuns s e true) e) i e 1)
  | .rejected => inversionSweep (freeEntry (commitBad (commitRuns s e true) e) i e 2)
  | _ => s

/-- LEDGER_COMMIT (R580): the head entry commits; a held queue manager or ledger delays it (R594). -/
def execLedgerCommit (s : State) : Host.Outcome State Fault Refusal :=
  if 0 < s.ldg.used && pdOn s 9 && islRuns s 26 && islRuns s 24 then
    .next (commitHead s s.ldg.head (entrySt s s.ldg.head))
  else .next s

/-! ### Registers (R593) -/

/-- `LDG_ENTRY.STATE`. -/
def JState.code : JState → Nat
  | .free => 0
  | .admitted => 1
  | .running => 2
  | .restarting => 3
  | .done => 4
  | .failing => 5
  | .rejected => 6

/-- A read of a register of I26. -/
def ldgRead (s : State) (off : Nat) : Option Word :=
  let l := s.ldg
  if off = 0x100 then some (mkWord [(16, 9, l.used), (0, 8, l.head)])
  else if off = 0x104 then some (mkWord [(24, 4, l.lastRestarts), (19, 3, l.lastStatus), (0, 16, l.lastJob.toNat)])
  else if off = 0x108 then some l.commits
  else if off = 0x10C then some (mkWord [(16, 16, l.rejects), (0, 16, l.fails)])
  else if 0x1000 ≤ off ∧ off < 0x2000 ∧ off % 4 = 0 then
    let e := entrySt s ((off - 0x1000) / 16)
    match off / 4 % 4 with
    | 0 => some (mkWord [(29, 3, e.st.code), (24, 5, e.model), (23, 1, b2n e.slotB), (16, 4, e.restarts), (0, 16, e.job.toNat)])
    | 1 => some e.seq
    | 2 => some e.tagLo
    | _ => some e.tagHi
  else none

/-- A write of a register of I26: every field is RO. -/
def ldgWrite (off : Nat) : RegAct := fun s => (s, if (ldgRead s off).isSome then stOk else stAddr)

end Sys2Proof.Machine
end

