-- ==== Sys2Proof/Machine/Tensor.lean ====
section
/-! DEFINITION. What the tensor and scale-unit commands compute, from element codes to element codes, with the saturation kinds that
are counted (12 R492 to R504, 13 R526 to R552). -/

namespace Sys2Proof.Machine

open Sys2Proof

/-- Element codes of a tensor, for indexed reads. -/
abbrev Codes := Array Nat

def Codes.at (a : Codes) (i : Nat) : Nat := a.getD i 0

/-- The sign of the k-th exact float zero of a command (DESIGN CHOICE, log 7): `k0` is where the command's free values begin. -/
def zsOf (k0 k : Nat) : Bool := Config.zeroSign (k0 + k)

/-- The elements 0 to n - 1 computed, the kinds collected. -/
def tabulate (n : Nat) (f : Nat → Elt) : List Nat × List Nat :=
  let es := (List.range n).map f
  (es.map Prod.fst, (es.map Prod.snd).flatten)

/-! ### Geometry (12 R492) -/

structure Geo where
  kh : Nat
  kw : Nat
  sh : Nat
  sw : Nat
  ph : Nat
  pw : Nat
  dh : Nat
  dw : Nat
  deriving DecidableEq, Repr

def Geo.of (p : Word) : Geo :=
  ⟨bits p 3 0, bits p 7 4, bits p 11 8, bits p 15 12, bits p 19 16, bits p 23 20, bits p 27 24, bits p 31 28⟩

/-- A field of the geometry that must not be 0. -/
def Geo.bad (g : Geo) : Bool := g.kh == 0 || g.kw == 0 || g.sh == 0 || g.sw == 0 || g.dh == 0 || g.dw == 0

/-- Output length: ⌊(n + 2p − d (k − 1) − 1) / s⌋ + 1, 0 when below 1. -/
def outLen (n k s p d : Nat) : Nat :=
  if s = 0 ∨ k = 0 ∨ n + 2 * p < d * (k - 1) + 1 then 0 else (n + 2 * p - d * (k - 1) - 1) / s + 1

def Geo.ho (g : Geo) (h : Nat) : Nat := outLen h g.kh g.sh g.ph g.dh

def Geo.wo (g : Geo) (w : Nat) : Nat := outLen w g.kw g.sw g.pw g.dw

/-- The pixel that window position (ky, kx) of output position (y, x) reads; none is padding. -/
def Geo.pixel (g : Geo) (h w y x ky kx : Nat) : Option Nat :=
  let iy := y * g.sh + ky * g.dh
  let ix := x * g.sw + kx * g.dw
  if g.ph ≤ iy ∧ iy - g.ph < h ∧ g.pw ≤ ix ∧ ix - g.pw < w then some ((iy - g.ph) * w + (ix - g.pw)) else none

/-! ### Products (12 R498, R499, 13 R526 to R530, R542 to R544) -/

/-- A product's shape: elements of the output, length of the reduction, which element of A and of B each term reads
(A: none is padding), and the output channel of an element. -/
structure Product where
  n : Nat
  k : Nat
  aAt : Nat → Nat → Option Nat
  bAt : Nat → Nat → Nat
  chan : Nat → Nat

def mmaShape (m n k : Nat) : Product :=
  { n := m * n, k := k, aAt := fun o t => some (o / n * k + t), bAt := fun o t => t * n + o % n, chan := fun o => o % n }

def convShape (g : Geo) (h w ci co : Nat) : Product :=
  { n := g.ho h * g.wo w * co, k := g.kh * g.kw * ci,
    aAt := fun o t =>
      let p := o / co
      (g.pixel h w (p / g.wo w) (p % g.wo w) (t / ci / g.kw) (t / ci % g.kw)).map (fun i => i * ci + t % ci),
    bAt := fun o t => t * co + o % co,
    chan := fun o => o % co }

def dwShape (g : Geo) (h w c : Nat) : Product :=
  { n := g.ho h * g.wo w * c, k := g.kh * g.kw,
    aAt := fun o t =>
      let p := o / c
      (g.pixel h w (p / g.wo w) (p % g.wo w) (t / g.kw) (t % g.kw)).map (fun i => i * c + o % c),
    bAt := fun o t => t * c + o % c,
    chan := fun o => o % c }

/-- A zero point of 8 or of 4 bits (13 R527, R528). -/
def zeroPt (f v : Nat) : Int := if f ≤ 1 then intVal f (v % 16) else if fSigned f then asSigned 8 v else ((v % 256 : Nat) : Int)

/-- Integer products with the bias, saturated once to INT32 (R529, R530). Padding reads the zero point of A. -/
def prodInt (p : Product) (fa fb : Nat) (a b : Codes) (za : Int) (zb : Nat → Int) (bias : Nat → Int) : List Nat × List Nat :=
  tabulate p.n (fun o =>
    let z := zb (p.chan o)
    let v := (List.range p.k).foldl (fun acc t =>
      match p.aAt o t with
      | none => acc
      | some i => acc + (intVal fa (a.at i) - za) * (intVal fb (b.at (p.bAt o t)) - z)) 0
    let r := satInt fI32 (v + bias (p.chan o))
    (r.1, kIf r.2 kACC))

/-- An accumulator of float sums: a value, or none once a NaN has entered; and whether a saturation has happened. -/
abbrev FAcc := Option Dy × Bool

def FAcc.zero : FAcc := (some .zero, false)

/-- A term added with one rounding (R525, R526). -/
def FAcc.add (a : FAcc) (x : Option Dy) : FAcc :=
  match a.1, x with
  | some v, some t =>
    let r := (v.add t).inner
    (some r.1, a.2 || r.2)
  | _, _ => (none, a.2)

/-- The accumulator written to format f. -/
def FAcc.out (a : FAcc) (f : Nat) (zs : Bool) : Elt :=
  match a.1 with
  | none => (canonNan f, kIf a.2 kFLOAT)
  | some v =>
    let r := dyFloat f v zs
    (r.1, kIf (a.2 || !r.2.isEmpty) kFLOAT)

/-- The value of an element, none for NaN. -/
def dyOf (f c : Nat) : Option Dy :=
  match readVal f c with
  | .nan => none
  | .num x _ => some x.dy

/-- Exact sum of optional terms. -/
def sumDy : List (Option Dy) → Option Dy
  | [] => some .zero
  | x :: r =>
    match x, sumDy r with
    | some a, some b => some (a.add b)
    | _, _ => none

/-- Product of optional values. -/
def mulDy (x y : Option Dy) : Option Dy :=
  match x, y with
  | some a, some b => some (a.mul b)
  | _, _ => none

/-- Float products: the exact sum of each step of K_c terms is rounded once and added with one rounding (R526). -/
def prodFloat (p : Product) (fa fb fo kc k0 : Nat) (a b : Codes) : List Nat × List Nat :=
  tabulate p.n (fun o =>
    let term := fun t =>
      match p.aAt o t with
      | none => mulDy (some .zero) (dyOf fb (b.at (p.bAt o t)))
      | some i => mulDy (dyOf fa (a.at i)) (dyOf fb (b.at (p.bAt o t)))
    let acc := (List.range (cdiv p.k kc)).foldl (fun (acc : FAcc) st =>
      let ts := ((List.range kc).map (st * kc + ·)).filter (· < p.k)
      match sumDy (ts.map term) with
      | none => (none, acc.2)
      | some x =>
        let r := x.inner
        FAcc.add (acc.1, acc.2 || r.2) (some r.1)) FAcc.zero
    acc.out fo (zsOf k0 o))

/-- Group-quantised operands (case 8): group length, escape entries, zero points, bias; the index of A's group scale and
row scale for group g of output o (none: padding), and of B's; scale codes, row scales and side lists. -/
structure Group where
  g : Nat
  e : Nat
  za : Int
  zb : Nat → Int
  bias : Nat → Option Dy
  aGrp : Nat → Nat → Option (Nat × Nat)
  sca : Codes
  s2a : Codes
  scb : Codes
  s2b : Codes
  esc : Codes

/-- s = S2 × (c + 1) / 256 (R534). -/
def groupScale (s2 c : Nat) : Option Dy := mulDy (dyOf fBF16 s2) (some ⟨(c : Int) + 1, -8⟩)

/-- The escape code of a format (R531). -/
def escCode (f : Nat) : Nat := if f = 0 then 8 else if f = 1 then 15 else if f = 2 then 0x80 else 255

/-- One group of one output element: the exact product of its non-escaped elements scaled, then each escaped element's term
(R542, R543). -/
def groupStep (p : Product) (q : Group) (fa fb : Nat) (a b : Codes) (o : Nat) (acc : FAcc) (g : Nat) : FAcc :=
  match q.aGrp o g with
  | none => acc
  | some (ix, row) =>
    let n := p.chan o
    let sb := groupScale (q.s2b.at n) (q.scb.at (n * (p.k / q.g) + g))
    let sa := groupScale (q.s2a.at row) (q.sca.at ix)
    let ts := (List.range q.g).map (g * q.g + ·)
    let bv := fun t => intVal fb (b.at (p.bAt o t)) - q.zb n
    let av := fun t => a.at ((p.aAt o t).getD 0)
    let escd := fun t => q.e ≠ 0 && av t == escCode fa
    let plain := ts.foldl (fun s t => if escd t then s else s + (intVal fa (av t) - q.za) * bv t) 0
    let acc := acc.add (mulDy (some (.ofInt plain)) (mulDy sa sb))
    ((ts.filter escd).zipIdx.filter (fun x => x.2 < q.e)).foldl (fun (ac : FAcc) x =>
      ac.add (mulDy (dyOf fFP16 (q.esc.at (ix * q.e + x.2))) (mulDy sb (some (.ofInt (bv x.1)))))) acc

/-- Group-quantised products: groups in ascending order, the bias last, one rounding to FO (R542 to R544) (DEDUCED, log 70). -/
def prodGroup (p : Product) (q : Group) (fa fb fo k0 : Nat) (a b : Codes) : List Nat × List Nat :=
  tabulate p.n (fun o =>
    let acc := (List.range (p.k / q.g)).foldl (groupStep p q fa fb a b o) FAcc.zero
    let acc := acc.add (q.bias (p.chan o))
    acc.out fo (zsOf k0 o))

/-- Surplus escape codes of a quantised tensor with groups of g consecutive elements (R541). -/
def surplusEsc (fa e g : Nat) (cs : List Nat) : List Nat :=
  if e = 0 ∨ g = 0 then []
  else
    ((List.range (cdiv cs.length g)).map (fun i =>
      many' (((cs.drop (i * g)).take g).filter (· == escCode fa)).length e)).flatten
where
  many' (n e : Nat) : List Nat := List.replicate (n - e) kESC

/-! ### POOL and RED (12 R500, 13 R523) -/

/-- The greater of two elements of a format: NaN prevails; between the two zeros MAX gives +0 and MIN gives -0 (R522, R523). -/
def pickElt (mx : Bool) (f : Nat) (x y : Nat) : Nat :=
  match readVal f x, readVal f y with
  | .num u _, .num v _ =>
    if u.dy.lt v.dy then (if mx then y else x)
    else if v.dy.lt u.dy then (if mx then x else y)
    else if mx then (if u.neg then y else x) else (if u.neg then x else y)
  | .nan, _ => x
  | .num _ _, .nan => y

/-- A reduction's result: operation 0 MAX, 1 MIN, 2 SUM over element codes of format fa (R500). A float SUM adds in
ascending order with one rounding each (R525; DEDUCED, log 22). -/
def reduceElts (op fa fo : Nat) (zs : Bool) (xs : List Nat) : Elt :=
  if op = 2 then
    if fInt fa then
      let r := satInt fo ((xs.map (intVal fa)).foldl (· + ·) 0)
      (r.1, kIf r.2 kACC)
    else (xs.foldl (fun (a : FAcc) c => a.add (dyOf fa c)) FAcc.zero).out fo zs
  else
    match xs with
    | [] => (0, [])
    | x :: r =>
      let c := r.foldl (pickElt (op == 0) fa) x
      match readVal fa c with
      | .nan => (canonNan fo, [])
      | .num v _ =>
        if fInt fa then (c, [])
        else ((writeFloat fo false v.neg v.m 1 v.e).1, [])

/-- POOL over H × W × C. Padding reads 0, the zero point of an operand without a QP block. -/
def pool (g : Geo) (op fa fo h w c k0 : Nat) (a : Codes) : List Nat × List Nat :=
  tabulate (g.ho h * g.wo w * c) (fun o =>
    let p := o / c
    reduceElts op fa fo (zsOf k0 o) ((List.range (g.kh * g.kw)).map (fun t =>
      match g.pixel h w (p / g.wo w) (p % g.wo w) (t / g.kw) (t % g.kw) with
      | none => 0
      | some i => a.at (i * c + o % c))))

/-- RED over D1 rows of D0 columns: one result per row, or one per column. -/
def red (byCol : Bool) (op fa fo d0 d1 k0 : Nat) (a : Codes) : List Nat × List Nat :=
  if byCol then tabulate d0 (fun j => reduceElts op fa fo (zsOf k0 j) ((List.range d1).map (fun i => a.at (i * d0 + j))))
  else tabulate d1 (fun i => reduceElts op fa fo (zsOf k0 i) ((List.range d0).map (fun j => a.at (i * d0 + j))))

/-! ### VOP (12 R501) -/

/-- A float result through the internal value (R525). -/
def innerTo (fo : Nat) (x : Dy) (zs : Bool) : Elt :=
  let r := x.inner
  let o := dyFloat fo r.1 (if x.m = 0 then zs else decide (x.m < 0))
  (o.1, kIf (r.2 || !o.2.isEmpty) kFLOAT)

/-- ADD, SUB, MUL, MAX, MIN of two elements; `m` is the MODE. -/
def vop2 (m fa fb fo : Nat) (zs : Bool) (x y : Nat) : Elt :=
  if fInt fa then
    let u := intVal fa x
    let v := intVal fb y
    let w := if m = 0 then u + v else if m = 1 then u - v else if m = 2 then u * v else if m = 3 then max u v else min u v
    let r := satInt fo w
    (r.1, kIf r.2 (if m = 2 then kACC else kOUT))
  else
    match readVal fa x, readVal fb y with
    | .num u _, .num v _ =>
      if m = 0 then innerTo fo (u.dy.add v.dy) zs
      else if m = 1 then innerTo fo (u.dy.add v.dy.neg) zs
      else if m = 2 then innerTo fo (u.dy.mul v.dy) zs
      else
        let first := if u.dy.lt v.dy then m ≠ 3 else if v.dy.lt u.dy then m == 3 else if m = 3 then !u.neg else u.neg
        let r := if first then u else v
        let o := writeFloat fo false r.neg r.m 1 r.e
        (o.1, kIf o.2 kFLOAT)
    | _, _ => (canonNan fo, [])

/-- ABS, NEG, CVT of one element. An integer ABS or NEG that saturates is counted (R524) under OUT, the kind of saturated integer outputs,
whose list of commands does not name it (DESIGN CHOICE, log 102). -/
def vop1 (m fa fo x : Nat) : Elt :=
  match readVal fa x with
  | .nan => (canonNan fo, [])
  | .num u _ =>
    let neg := if m = 5 then false else if m = 6 then !u.neg else u.neg
    let v : Flo := ⟨neg, u.m, u.e⟩
    if fInt fo then
      let r := satInt fo v.dy.round
      (r.1, kIf r.2 kOUT)
    else
      let r := writeFloat fo false neg v.m 1 v.e
      (r.1, kIf r.2 kFLOAT)

/-- VOP over D1 rows of D0 columns; with BROW the one row of B serves every row. -/
def vop (m fa fb fo d0 d1 : Nat) (brow : Bool) (k0 : Nat) (a b : Codes) : List Nat × List Nat :=
  tabulate (d0 * d1) (fun o =>
    if m ≤ 4 then vop2 m fa fb fo (zsOf k0 o) (a.at o) (b.at (if brow then o % d0 else o)) else vop1 m fa fo (a.at o))

/-! ### ACT (12 R502) -/

/-- A float table entry as written: an infinity and a NaN as R521 and R522 have them. -/
def passFloat (f c : Nat) : Elt :=
  match readVal f c with
  | .nan => (canonNan f, [kFLOAT])
  | .num v i => ((writeFloat f false v.neg v.m 1 v.e).1, kIf i kFLOAT)

/-- The segment of case 3: ⌊(x − lo) × 64 / (hi − lo)⌋, the end segment outside the range. -/
def segment (x lo hi : Dy) : Nat :=
  let e := min x.e (min lo.e hi.e)
  let n := (x.at e - lo.at e) * 64
  let d := hi.at e - lo.at e
  (clampI 0 63 (n / d)).toNat

/-- One element of case 3: slope × x + intercept, product and sum through the internal value. A NaN end of the range
makes the result NaN (R522; DEDUCED, log 23). -/
def actLine (f : Nat) (zs : Bool) (lo hi : Nat) (tab : Codes) (c : Nat) : Elt :=
  match dyOf f c, dyOf fBF16 lo, dyOf fBF16 hi with
  | some x, some l, some h =>
    let k := segment x l h
    let sl := tab.at (2 * k)
    let ic := tab.at (2 * k + 1)
    let ev := inputEv fBF16 [sl, ic]
    match dyOf fBF16 sl, dyOf fBF16 ic with
    | some s, some i =>
      let p := (s.mul x).inner
      let r := innerTo f (p.1.add i) zs
      (r.1, ev ++ kIf (p.2 || !r.2.isEmpty) kFLOAT)
    | _, _ => (canonNan f, ev)
  | _, _, _ => (canonNan f, [])

/-- ACT: a table of 256 entries indexed by the input code, or 64 segments. -/
def act (fa fo lo hi k0 : Nat) (n : Nat) (a tab : Codes) : List Nat × List Nat :=
  tabulate n (fun o =>
    if !fInt fa then actLine fa (zsOf k0 o) lo hi tab (a.at o)
    else if fInt fo then (tab.at (a.at o), [])
    else passFloat fo (tab.at (a.at o)))

/-! ### QSCAN, QPACK, QUNPK (13 R531 to R541, R549 to R552) -/

/-- The largest magnitude of the elements that are not NaN; none when there is none. -/
def maxAbs (f : Nat) : List Nat → Option Dy
  | [] => none
  | c :: r =>
    match readVal f c with
    | .nan => maxAbs f r
    | .num x _ =>
      let v : Dy := ⟨(x.m : Int), x.e⟩
      match maxAbs f r with
      | none => some v
      | some w => some (if v.lt w then w else v)

/-- A magnitude rounded upward to BF16. -/
def bfUp (x : Dy) : Nat := (writeFloat fBF16 true false x.m.natAbs 1 x.e).1

/-- The elements of group i, groups of g. -/
def groupOf (a : Codes) (g i : Nat) : List Nat := (List.range g).map (fun t => a.at (i * g + t))

/-- A free value written to a float format: no engine writes an infinity (R520), and a NaN is the canonical one (R522). -/
def storable (f c : Nat) : Nat :=
  match readFloat f c with
  | .nan => canonNan f
  | .num x _ => (writeFloat f false x.neg x.m 1 x.e).1

/-- The maxabs of a group without a number: a magnitude, else free (DESIGN CHOICE, log 19). -/
def emptyGroup (k : Nat) : Nat := storable fBF16 ((Config.emptyMax k).toNat % 2 ^ 15)

/-- QSCAN: the maxabs of each group of g, rounded upward to BF16 (R533) (DESIGN CHOICE, log 19). -/
def qscan (fa g n k0 : Nat) (a : Codes) : List Nat × List Nat :=
  tabulate (n / g) (fun i =>
    let cs := groupOf a g i
    ((match maxAbs fa cs with
      | some v => bfUp v
      | none => emptyGroup (k0 + i)), []))

/-- The code range with or without an escape code (R531). -/
def qLo (f e : Nat) : Int := if e ≠ 0 ∧ fSigned f then fMin f + 1 else fMin f

def qHi (f e : Nat) : Int := if e ≠ 0 ∧ !fSigned f then fMax f - 1 else fMax f

/-- n = max(z − q_lo, q_hi − z) (R532). -/
def qDiv (f e : Nat) (z : Int) : Nat := (max (z - qLo f e) (qHi f e - z)).toNat

/-- S2 = m_max / n rounded upward to BF16; 1.0 for 0 (R534). -/
def rowScale (mmax : Dy) (n : Nat) : Nat :=
  if mmax.m = 0 then 0x3F80 else (writeFloat fBF16 true false mmax.m.natAbs n mmax.e).1

/-- c_g = ⌈256 × m_g / (n × S2)⌉ − 1, clamped (R534). -/
def groupCode (mg s2 : Dy) (n : Nat) : Nat :=
  let e := min mg.e s2.e
  let num := 256 * (mg.at e).toNat
  let den := n * (s2.at e).toNat
  Nat.min 255 (cdiv num den - 1)

/-- x / s rounded to nearest, ties to even; s is positive. -/
def divRound (x s : Dy) : Int :=
  let e := min x.e s.e
  divEven (x.at e) (s.at e).toNat

/-- What packing one group gives: codes, side-list entries, kinds. -/
structure Packed where
  codes : List Nat
  side : List Nat
  ev : List Nat

/-- One element packed after the ones before it (R535 to R537); `out`: its group has a carried maxabs of 0, so that every element but a zero
is an outlier, beyond the end of its sign (R563). -/
def packElt (fa fo e : Nat) (z : Int) (s : Dy) (out : Bool) (p : Packed) (c : Nat) : Packed :=
  match readVal fa c with
  | .nan => { p with codes := p.codes ++ [toTwos (fBits fo) z] }
  | .num x _ =>
    let q := if out && x.m != 0 then (if x.neg then qLo fo e - 1 else qHi fo e + 1) else z + divRound x.dy s
    let clip := toTwos (fBits fo) (clampI (qLo fo e) (qHi fo e) q)
    if qLo fo e ≤ q ∧ q ≤ qHi fo e then { p with codes := p.codes ++ [clip] }
    else if e = 0 then { p with codes := p.codes ++ [clip], ev := p.ev ++ [kCLIP] }
    else if p.side.length < e then
      let w := writeFloat fFP16 false x.neg x.m 1 x.e
      { codes := p.codes ++ [escCode fo], side := p.side ++ [w.1], ev := p.ev ++ kIf w.2 kFLOAT }
    else { p with codes := p.codes ++ [clip], ev := p.ev ++ [kESC] }

/-- A maxabs read: NaN is none, an infinity the largest finite value, a negative one a free value's magnitude. -/
def readMax (k c : Nat) : Option Dy :=
  match readFloat fBF16 c with
  | .nan => none
  | .num x _ =>
    if x.neg && x.m != 0 then
      match readFloat fBF16 ((Config.negMax k).toNat % 2 ^ 15) with
      | .nan => none
      | .num y _ => some y.dy
    else some ⟨(x.m : Int), x.e⟩

/-- What QPACK writes: codes, group-scale codes, row scales, side lists; and the kinds counted. -/
structure PackOut where
  codes : List Nat
  sca : List Nat
  s2a : List Nat
  esc : List Nat
  ev : List Nat

/-- The largest of optional magnitudes; none once one is NaN. -/
def maxOpt : List (Option Dy) → Option Dy
  | [] => some .zero
  | x :: r =>
    match x, maxOpt r with
    | some a, some b => some (if a.lt b then b else a)
    | _, _ => none

/-- The code of an element where the row's scale is NaN: 0 (R522), but a NaN element is coded as z (R535). -/
def nanCode (fa fo : Nat) (z : Int) (c : Nat) : Nat :=
  match readVal fa c with
  | .nan => toTwos (fBits fo) z
  | .num _ _ => 0

/-- One row of QPACK: groups of g with maxabs ms, carried ones under ADAPT (R534 to R538, R563). A NaN maxabs makes the row's results those
of R522. -/
def packRow (adapt : Bool) (fa fo e g : Nat) (z : Int) (ms : List (Option Dy)) (cs : List Nat) : PackOut :=
  let n := qDiv fo e z
  match maxOpt ms with
  | none =>
    { codes := cs.map (nanCode fa fo z), sca := ms.map (fun _ => 0), s2a := [canonNan fBF16], esc := List.replicate (ms.length * e) 0,
      ev := [] }
  | some mmax =>
    let s2c := rowScale mmax n
    let s2 := (dyOf fBF16 s2c).getD .zero
    let gs := ms.zipIdx.map (fun x =>
      let c := groupCode (x.1.getD .zero) s2 n
      let s := s2.mul ⟨(c : Int) + 1, -8⟩
      let out := adapt && (x.1.getD .zero).m == 0
      (c, ((cs.drop (x.2 * g)).take g).foldl (packElt fa fo e z s out) ⟨[], [], []⟩))
    { codes := (gs.map (fun x => x.2.codes)).flatten, sca := gs.map Prod.fst, s2a := [s2c],
      esc := (gs.map (fun x => x.2.side ++ List.replicate (e - x.2.side.length) 0)).flatten,
      ev := (gs.map (fun x => x.2.ev)).flatten }

/-- QPACK over D1 rows of D0 columns with the maxabs of every group. -/
def qpack (adapt : Bool) (fa fo e g d0 d1 : Nat) (z : Int) (ms : Array (Option Dy)) (a : Codes) : PackOut :=
  let per := d0 / g
  let rows := (List.range d1).map (fun r =>
    packRow adapt fa fo e g z ((List.range per).map (fun i => ms.getD (r * per + i) none)) ((List.range d0).map (fun j => a.at (r * d0 + j))))
  { codes := (rows.map PackOut.codes).flatten, sca := (rows.map PackOut.sca).flatten, s2a := (rows.map PackOut.s2a).flatten,
    esc := (rows.map PackOut.esc).flatten, ev := (rows.map PackOut.ev).flatten }

/-- MA after a step: m_now when it is not below m_used, else m_used − (m_used − m_now) × 2^−k, rounded upward (R552). -/
def decay (k : Nat) (used nowv : Dy) : Nat :=
  if nowv.lt used then bfUp (used.add ((used.add nowv.neg).neg.mul ⟨1, -(k : Int)⟩)) else bfUp nowv

/-- One group of QUNPK (R539 to R541). -/
def unpackGroup (fa fo e : Nat) (z : Int) (s : Option Dy) (side : List Nat) (zs : Nat → Bool) :
    List Nat → Nat → Nat → List Elt
  | [], _, _ => []
  | c :: r, i, used =>
    if e ≠ 0 ∧ c = escCode fa then
      (if used < e then
        (match readFloat fFP16 (side.getD used 0) with
         | .nan => (canonNan fo, [kFLOAT])
         | .num x inf =>
           let w := writeFloat fo false x.neg x.m 1 x.e
           (w.1, kIf (inf || w.2) kFLOAT))
       else (0, [kESC])) :: unpackGroup fa fo e z s side zs r (i + 1) (used + 1)
    else
      (match s with
       | none => (canonNan fo, [])
       | some sv => dyFloat fo ((Dy.ofInt (intVal fa c - z)).mul sv) (zs i)) :: unpackGroup fa fo e z s side zs r (i + 1) used

/-- QUNPK over D1 rows of D0 columns. -/
def qunpk (fa fo e g d0 d1 k0 : Nat) (z : Int) (a sca s2a esc : Codes) : List Nat × List Nat :=
  let per := d0 / g
  let es := ((List.range (d1 * per)).map (fun ix =>
    unpackGroup fa fo e z (groupScale (s2a.at (ix / per)) (sca.at ix)) ((List.range e).map (fun t => esc.at (ix * e + t)))
      (fun i => zsOf k0 (ix * g + i)) (groupOf a g ix) 0 0)).flatten
  (es.map Prod.fst, (es.map Prod.snd).flatten)

/-! ### RSCL (13 R545 to R548) -/

/-- out = sat(round((t × M) / 2^sh) + z). -/
def rescale (fo : Nat) (t : Int) (m sh : Nat) (z : Int) : Elt :=
  let r := satInt fo (divEven (t * (m : Int)) (2 ^ sh) + z)
  (r.1, kIf r.2 kOUT)

/-- RSCL in arithmetic mode. -/
def rsclArith (fa fo n : Nat) (p0 : Word) (a : Codes) : List Nat × List Nat :=
  let z := if fSigned fo then asSigned 8 (bits p0 31 24) else ((bits p0 31 24 : Nat) : Int)
  tabulate n (fun o => rescale fo (intVal fa (a.at o)) (bits p0 15 0) (bits p0 21 16) z)

/-- RSCL in table mode: two words per channel. -/
def rsclTable (fo d0 n : Nat) (p0 : Word) (a tab : Codes) : List Nat × List Nat :=
  let z := if fSigned fo then asSigned 8 (bits p0 31 24) else ((bits p0 31 24 : Nat) : Int)
  tabulate n (fun o =>
    let w := tab.at (2 * (o % d0))
    rescale fo (intVal fI32 (a.at o) + asSigned 32 (tab.at (2 * (o % d0) + 1))) (w % 2 ^ 16) (w / 2 ^ 16 % 64) z)

end Sys2Proof.Machine
end

