-- ==== Sys2Proof/Machine/Operands.lean ====
section
/-! DEFINITION. The command encoding, operand references, the regions that each engine reaches, QP blocks, and the operands of every
command with their sizes (12 R486 to R494). -/

namespace Sys2Proof.Machine

open Sys2Proof

/-! ### Command words (R486) -/

structure Cmd where
  opc : Nat
  fa : Nat
  fb : Nat
  fo : Nat
  mode : Nat
  evt : Bool
  rsv : Nat
  a : Word
  b : Word
  o : Word
  d0 : Nat
  d1 : Nat
  d2 : Nat
  d3 : Nat
  p0 : Word
  p1 : Word
  deriving DecidableEq, Repr

/-- A command from its eight words. -/
def Cmd.ofWords (ws : List Word) : Cmd :=
  let w := fun k => nth ws k 0
  { opc := bits (w 0) 7 0, fa := bits (w 0) 11 8, fb := bits (w 0) 15 12, fo := bits (w 0) 19 16, mode := bits (w 0) 23 20,
    evt := bit (w 0) 24, rsv := bits (w 0) 31 25, a := w 1, b := w 2, o := w 3, d0 := bits (w 4) 15 0, d1 := bits (w 4) 31 16,
    d2 := bits (w 5) 15 0, d3 := bits (w 5) 31 16, p0 := w 6, p1 := w 7 }

/-- The command at an address. -/
def cmdAt (s : State) (a : Nat) : Cmd := Cmd.ofWords ((chunks 4 32 (readBytes s a 32)).map (BitVec.ofNat 32))

/-- Opcodes (R492). -/
def oNOP : Nat := 0x00
def oMARK : Nat := 0x01
def oFENCE : Nat := 0x02
def oCOMMIT : Nat := 0x03
def oSWAIT : Nat := 0x08
def oSSIG : Nat := 0x09
def oTWAIT : Nat := 0x0A
def oENQ : Nat := 0x0C
def oDEQ : Nat := 0x0D
def oMOV : Nat := 0x10
def oGATH : Nat := 0x11
def oSCAT : Nat := 0x12
def oMMA : Nat := 0x20
def oCONV : Nat := 0x21
def oDWCV : Nat := 0x22
def oPOOL : Nat := 0x23
def oRED : Nat := 0x24
def oVOP : Nat := 0x28
def oACT : Nat := 0x29
def oQSCAN : Nat := 0x30
def oQPACK : Nat := 0x31
def oQUNPK : Nat := 0x32
def oRSCL : Nat := 0x33

/-- The opcodes that are not reserved. -/
def opcodes : List Nat :=
  [0x00, 0x01, 0x02, 0x03, 0x08, 0x09, 0x0A, 0x0C, 0x0D, 0x10, 0x11, 0x12, 0x20, 0x21, 0x22, 0x23, 0x24, 0x28, 0x29, 0x30, 0x31,
   0x32, 0x33]

/-- Control commands but for MARK and NOP, which every engine executes. -/
def ctlOps : List Nat := [0x02, 0x03, 0x08, 0x09, 0x0A]

/-- The opcode and mode can be executed on the engine (R473, 10 R383). -/
def engineRuns (e : Eng) (c : Cmd) : Bool :=
  let base := [oNOP, oMARK]
  let loam := base ++ ctlOps
  let te := loam ++ [oMMA, oCONV, oDWCV, oPOOL, oRED, oVOP, oACT, oRSCL, oMOV, oENQ, oDEQ]
  let ok := match e with
    | .su => (loam ++ [oQSCAN, oQPACK, oQUNPK, oRSCL, oMOV, oENQ, oDEQ]).contains c.opc
    | .dm0 => (loam ++ [oMOV, oGATH, oSCAT, oENQ, oDEQ]).contains c.opc
    | .dm1 => (loam ++ [oMOV, oGATH, oSCAT, oENQ, oDEQ]).contains c.opc
    | .sce => (base ++ [oMMA, oCONV, oDWCV, oPOOL, oRED, oVOP, oACT, oRSCL, oMOV]).contains c.opc
    | _ => te.contains c.opc
  ok && !(c.opc == oRSCL && c.mode % 2 == 1 && e != .su)

/-! ### Operand references (R487, R565) -/

inductive Ref where
  | mem (a : Nat)
  | queue (q : Nat)
  | scc (off : Nat)
  | none
  | bad
  deriving DecidableEq, Repr

/-- A reference taken apart. -/
def Ref.of (w : Word) : Ref :=
  match bits w 31 30 with
  | 0 => .mem (0x10000000 + bits w 29 0)
  | 1 => .mem (0x80000000 + bits w 29 0)
  | 2 => if bits w 29 14 = 0 then .queue (bits w 13 0) else .bad
  | _ =>
    if bits w 29 28 = 0 then (if bits w 27 0 = 0 then .none else .bad)
    else if bits w 29 28 = 1 then (if bits w 27 16 = 0 then .scc (bits w 15 0) else .bad)
    else .bad

/-! ### Regions (R488) -/

/-- A region of the internal address map as an engine sees it: first byte, size, physical address of the first byte,
whether the engine may write it. -/
structure Region where
  base : Nat
  size : Nat
  phys : Nat
  wr : Bool
  deriving DecidableEq, Repr

/-- The regions that an engine reaches. A clay tile that failed its power-on probe is absent (00 R12): a reference into it is case 243, as
for a tile that was never assembled, while one into a tile declared failed later meets TILE_FAULT (17 R669) (DESIGN CHOICE, log 100). -/
def regions (s : State) (e : Eng) : List Region :=
  let tsr : Region := ⟨0x10000000, 0x800000, 0x10000000, true⟩
  match e with
  | .su => [tsr]
  | .sce => [⟨sceModel, 0x7D000, sceModel, true⟩, ⟨sceInput, 0x1000, sceInput, true⟩, ⟨sceResult, 64, sceResult, true⟩]
  | .dm0 => dm s tsr
  | .dm1 => dm s tsr
  | _ => [tsr, ⟨0x18000000, 0x40000, 0x18000000 + engIx e * 0x40000, true⟩]
where
  dm (s : State) (tsr : Region) : List Region :=
    [tsr, ⟨0x18000000, 0x40000, 0x18000000, true⟩,
     ⟨0x18040000, (nTe s - 1) * 0x40000, 0x18040000, true⟩,
     ⟨0x20000000, 0x50000, 0x20000000, false⟩, ⟨0x20050000, 0x32A00, 0x20050000, false⟩,
     ⟨0x20090000, 0x2FD00, 0x20090000, false⟩, ⟨0x200BFD00, 0x300, 0x200BFD00, false⟩,
     ⟨0x200C0000, 0x140000, 0x200C0000, true⟩, ⟨0x28000000, 0x80000, 0x28000000, false⟩] ++
    (if tileFused s .t0 && tileAnswers s .t0 then [⟨0x80000000, 0x20000000, 0x80000000, true⟩] else []) ++
    (if tileFused s .t1 && tileAnswers s .t1 then [⟨0xA0000000, 0x20000000, 0xA0000000, true⟩] else [])

/-- The physical address of [a, a + n) for the engine, when one of its regions holds it whole and allows the access. -/
def reach (s : State) (e : Eng) (a n : Nat) (wr : Bool) : Option Nat :=
  match (regions s e).find? (fun r => decide (r.base ≤ a) && decide (a + n ≤ r.base + r.size) && decide (a < r.base + r.size)) with
  | some r => if wr && !r.wr then none else some (r.phys + (a - r.base))
  | none => none

/-- The clay tile that an address lies in. -/
def tileOf (a : Nat) : Option Tile := if isClay a then (if a < 0xA0000000 then some .t0 else some .t1) else none

/-! ### QP blocks (R494) -/

structure QP where
  za : Nat
  zb : Nat
  zbrow : Bool
  g : Nat
  e : Nat
  rsv : Nat
  bias : Word
  zbref : Word
  sca : Word
  s2a : Word
  scb : Word
  s2b : Word
  esca : Word
  deriving DecidableEq, Repr

/-- A QP block from its eight words. -/
def QP.ofWords (ws : List Word) : QP :=
  let w := fun k => nth ws k 0
  let ge := bits (w 0) 18 17
  let es := bits (w 0) 20 19
  { za := bits (w 0) 7 0, zb := bits (w 0) 15 8, zbrow := bit (w 0) 16, g := if ge = 0 then 0 else 16 * 2 ^ ge,
    e := if es = 0 then 0 else 2 ^ (es - 1), rsv := bits (w 0) 31 21, bias := w 1, zbref := w 2, sca := w 3, s2a := w 4,
    scb := w 5, s2b := w 6, esca := w 7 }

/-- What stands for a QP block that is NONE: no groups, no escapes, zero points 0, no bias. -/
def QP.absent : QP := ⟨0, 0, false, 0, 0, 0, 0xC0000000, 0xC0000000, 0xC0000000, 0xC0000000, 0xC0000000, 0xC0000000, 0xC0000000⟩

/-- The word of a command that holds its QP reference. -/
def qpRef (c : Cmd) : Word := if c.opc = oCONV ∨ c.opc = oDWCV then c.p1 else c.p0

/-- Commands with a QP reference; those that need one. -/
def hasQp (c : Cmd) : Bool := [oMMA, oCONV, oDWCV, oQSCAN, oQPACK, oQUNPK].contains c.opc

def needsQp (c : Cmd) : Bool := [oQSCAN, oQPACK, oQUNPK].contains c.opc

/-- Bytes that an engine reads at a reference to memory or to the scale cache, if it reaches them. -/
def refBytes (s : State) (e : Eng) (r : Ref) (n : Nat) : Option (List Byte) :=
  match r with
  | .mem a => (reach s e a n false).map (fun p => readBytes s p n)
  | .scc off => if e = .su ∧ off + n ≤ 0x10000 then some ((List.range n).map (fun i => zget s.scc (off + i))) else none
  | _ => none

/-- The bytes that a lane's present command has taken from the queue of an operand. -/
def Lane.got (l : Lane) (r : Role) : List Byte := ((l.ins.find? (fun x => x.1 == r)).map Prod.snd).getD []

/-- Those bytes set. -/
def Lane.setGot (l : Lane) (r : Role) (bs : List Byte) : Lane := { l with ins := l.ins.filter (fun x => x.1 != r) ++ [(r, bs)] }

/-- Memory as an engine's lane sees it: with its own writes that are not yet visible to other lanes (R478, R479). -/
def viewOf (s : State) (e : Eng) : State :=
  match (engSt s e).cur with
  | some l => l.wbuf.foldl (fun t w => writeBytes t w.1 w.2) s
  | none => s

/-- The first n bytes visible in a queue. -/
def peekItems (s : State) (q n : Nat) : Option (List Byte) :=
  let d := qd s q
  if n ≤ d.vis * d.item then
    some (((d.addrs d.rp (cdiv n d.item)).map (fun a => readBytes s a d.item)).flatten.take n)
  else none

/-- The command's QP block, when its reference can be read: from memory, from the scale cache, or from the items of a queue that are
visible or have been taken (R492: a QP reference is an operand reference). -/
def qpOf (s : State) (e : Eng) (l : Lane) (en : Entry) (c : Cmd) : Option QP :=
  let block := fun bs => QP.ofWords ((chunks 4 32 bs).map (BitVec.ofNat 32))
  if !hasQp c then some .absent
  else match Ref.of (qpRef c) with
    | .none => some .absent
    | .queue q0 =>
      if l.got .qp ≠ [] then some (block (l.got .qp))
      else (portQueue en q0).bind (fun q => (peekItems s q 32).map block)
    | r => (refBytes (viewOf s e) e r 32).map block

/-! ### Operands -/

/-- An operand of a command: its reference, whether it is written, the bytes it spans in memory, the bytes it takes from or
gives to a queue, its alignment in memory, whether it may be a queue, lie in memory, be NONE. -/
structure Opd where
  role : Role
  ref : Ref
  wr : Bool
  span : Nat
  qbytes : Nat
  align : Nat := 64
  queueOk : Bool := true
  memOk : Bool := true
  need : Bool := true
  deriving DecidableEq, Repr

/-- A tensor operand of n bytes. -/
def tensor (role : Role) (w : Word) (wr : Bool) (n : Nat) : Opd := { role, ref := Ref.of w, wr, span := n, qbytes := n }

/-- A table, a QP block, group scales or side lists: operand references too (R492), with an alignment of their own. -/
def tableOpd (role : Role) (w : Word) (wr : Bool) (n align : Nat) : Opd :=
  { role, ref := Ref.of w, wr, span := n, qbytes := n, align }

/-- The operand of a QP block. -/
def qpOpd (c : Cmd) : Opd := { tableOpd .qp (qpRef c) false 32 32 with need := needsQp c }

/-- Elements of B's group scales and the shape of A's quantised rows: rows, groups per row. For CONV the rows of A are its
pixels, each a row of C_in elements (DESIGN CHOICE, log 18). -/
def quantRows (c : Cmd) (g : Nat) : Nat × Nat :=
  if g = 0 then (c.d1, 1)
  else if c.opc = oMMA then (c.d0, c.d2 / g)
  else if c.opc = oCONV then (c.d0 * c.d1, c.d2 / g)
  else (c.d1, c.d0 / g)

/-- Output channels and reduction length of a product. -/
def chansOf (c : Cmd) : Nat := if c.opc = oMMA then c.d1 else if c.opc = oCONV then c.d3 else c.d2

def redLen (c : Cmd) : Nat :=
  let g := Geo.of c.p0
  if c.opc = oMMA then c.d2 else if c.opc = oCONV then g.kh * g.kw * c.d2 else g.kh * g.kw

/-- Operands that a QP block names for a product (R494, R498). -/
def prodQpOpds (c : Cmd) (q : QP) : List Opd :=
  let n := chansOf c
  let grouped := q.g ≠ 0 ∧ c.fo ≥ 6
  let r := quantRows c q.g
  let bias := { tableOpd .bias q.bias false (if c.fo ≥ 6 then fBytes c.fo n else 4 * n) 64 with need := false }
  let zb := if q.zbrow then [tableOpd .zb q.zbref false n 64] else []
  let sc := if grouped then
      [tableOpd .sca q.sca false (r.1 * r.2) 64, tableOpd .s2a q.s2a false (2 * r.1) 64,
       tableOpd .scb q.scb false (n * (redLen c / q.g)) 64, tableOpd .s2b q.s2b false (2 * n) 64] ++
      (if q.e = 0 then [] else [tableOpd .esc q.esca false (r.1 * r.2 * 2 * q.e) 64])
    else []
  bias :: zb ++ sc

/-- Group length of QSCAN, QPACK, QUNPK: none means one group per row (R503). -/
def rowGroup (c : Cmd) (q : QP) : Nat := if q.g = 0 then c.d0 else q.g

/-- Groups of a D1 × D0 tensor. -/
def groupsOf (c : Cmd) (q : QP) : Nat := if rowGroup c q = 0 then 0 else c.d1 * (c.d0 / rowGroup c q)

/-- Bytes spanned by rows at a pitch. -/
def pitched (d0 d1 pitch : Nat) : Nat := if d1 ≤ 1 then d0 * d1 else (d1 - 1) * pitch + d0

/-- Item size of the queue that a reference names, for the running job. -/
def itemOf (s : State) (en : Entry) (r : Ref) : Nat :=
  match r with
  | .queue q => ((portQueue en q).map (fun x => (qd s x).item)).getD 0
  | _ => 0

/-- The operands of a command (R492). -/
def opdsOf (s : State) (en : Entry) (c : Cmd) (q : QP) : List Opd :=
  let g := Geo.of c.p0
  let qp := if hasQp c then [qpOpd c] else []
  let n2 := c.d0 * c.d1
  if c.opc = oMMA then
    [tensor .a c.a false (fBytes c.fa (c.d0 * c.d2)), tensor .b c.b false (fBytes c.fb (c.d2 * c.d1)),
     tensor .o c.o true (fBytes c.fo n2)] ++ qp ++ prodQpOpds c q
  else if c.opc = oCONV then
    [tensor .a c.a false (fBytes c.fa (n2 * c.d2)), tensor .b c.b false (fBytes c.fb (g.kh * g.kw * c.d2 * c.d3)),
     tensor .o c.o true (fBytes c.fo (g.ho c.d0 * g.wo c.d1 * c.d3))] ++ qp ++ prodQpOpds c q
  else if c.opc = oDWCV then
    [tensor .a c.a false (fBytes c.fa (n2 * c.d2)), tensor .b c.b false (fBytes c.fb (g.kh * g.kw * c.d2)),
     tensor .o c.o true (fBytes c.fo (g.ho c.d0 * g.wo c.d1 * c.d2))] ++ qp ++ prodQpOpds c q
  else if c.opc = oPOOL then
    [tensor .a c.a false (fBytes c.fa (n2 * c.d2)), tensor .o c.o true (fBytes c.fo (g.ho c.d0 * g.wo c.d1 * c.d2))]
  else if c.opc = oRED then
    [tensor .a c.a false (fBytes c.fa n2), tensor .o c.o true (fBytes c.fo (if c.mode / 4 % 2 = 1 then c.d0 else c.d1))]
  else if c.opc = oVOP then
    [tensor .a c.a false (fBytes c.fa n2)] ++
    (if c.mode ≤ 4 then [tensor .b c.b false (fBytes c.fb (if bit c.p0 0 then c.d0 else n2))]
     else [{ tensor .b c.b false 0 with need := false }]) ++
    [tensor .o c.o true (fBytes c.fo n2)]
  else if c.opc = oACT then
    [tensor .a c.a false (fBytes c.fa n2),
     tableOpd .table c.b false (if fInt c.fa && !fInt c.fo then 256 * (fBits c.fo / 8) else 256) 64,
     tensor .o c.o true (fBytes c.fo n2)]
  else if c.opc = oQSCAN then
    [tensor .a c.a false (fBytes c.fa n2), tensor .o c.o true (2 * groupsOf c q)] ++ qp
  else if c.opc = oQPACK then
    let b := match Ref.of c.b with
      | .scc _ => tableOpd .b c.b true (8 + 4 * groupsOf c q) 8
      | _ => tensor .b c.b false (2 * groupsOf c q)
    [tensor .a c.a false (fBytes c.fa n2), b, tensor .o c.o true (fBytes c.fo n2)] ++ qp ++
    [tableOpd .sca q.sca true (groupsOf c q) 64, tableOpd .s2a q.s2a true (2 * c.d1) 64] ++
    (if q.e = 0 then [] else [tableOpd .esc q.esca true (groupsOf c q * 2 * q.e) 64])
  else if c.opc = oQUNPK then
    [tensor .a c.a false (fBytes c.fa n2), tensor .o c.o true (fBytes c.fo n2)] ++ qp ++
    [tableOpd .sca q.sca false (groupsOf c q) 64, tableOpd .s2a q.s2a false (2 * c.d1) 64] ++
    (if q.e = 0 then [] else [tableOpd .esc q.esca false (groupsOf c q * 2 * q.e) 64])
  else if c.opc = oRSCL then
    [tensor .a c.a false (fBytes c.fa n2), tensor .o c.o true (fBytes c.fo n2)] ++
    (if c.mode % 2 = 1 then [tableOpd .table c.p1 false (8 * c.d0) 64] else [])
  else if c.opc = oMOV then
    [{ tensor .a c.a false n2 with span := pitched c.d0 c.d1 c.p0.toNat, align := 4 },
     { tensor .o c.o true n2 with span := pitched c.d0 c.d1 c.p1.toNat, align := 4 }]
  else if c.opc = oGATH then
    [tableOpd .a c.a false (c.p0.toNat * c.d0) 4, { tensor .b c.b false (fBytes c.fb c.d1) with align := 4 },
     { tensor .o c.o true n2 with align := 4 }]
  else if c.opc = oSCAT then
    [{ tensor .a c.a false n2 with align := 4 }, { tensor .b c.b false (fBytes c.fb c.d1) with align := 4 },
     tableOpd .o c.o true (c.p0.toNat * c.d0) 4]
  else if c.opc = oENQ then
    let n := c.d0 * itemOf s en (Ref.of c.o)
    [{ tensor .a c.a false n with queueOk := false }, { tensor .o c.o true n with memOk := false }]
  else if c.opc = oDEQ then
    let n := c.d0 * itemOf s en (Ref.of c.a)
    [{ tensor .a c.a false n with memOk := false }, { tensor .o c.o true n with queueOk := false }]
  else if c.opc = oTWAIT then [{ tensor .a c.a false 0 with memOk := false }]
  else []

/-- The operand of a role. -/
def opdRole (os : List Opd) (r : Role) : Option Opd := os.find? (fun o => o.role == r)

end Sys2Proof.Machine
end

