-- ==== Sys2Proof/Machine/Cases.lean ====
section
/-! DEFINITION. The operand cases that an engine checks before a command starts (12 R495 to R506, 10 R383, R384). -/

namespace Sys2Proof.Machine

open Sys2Proof

/-- A failed check: case number, fault code, the queue involved. -/
structure Ill where
  cas : Nat
  code : Nat
  q : Option Nat
  deriving DecidableEq, Repr

def illOPC : Nat := 1
def illENGINE : Nat := 2
def illRSVD : Nat := 3
def illADDR : Nat := 4
def illALIGN : Nat := 5
def illOBJECT : Nat := 6
def illDEPTH : Nat := 7
def illFMT : Nat := 8
def illSHAPE : Nat := 9
def illSSIG : Nat := 10

/-! ### Used fields (R492, R493) -/

/-- Which fields a command uses: references, formats, how many dimensions, bits of P0 and P1. -/
structure Uses where
  a : Bool := false
  b : Bool := false
  o : Bool := false
  fa : Bool := false
  fb : Bool := false
  fo : Bool := false
  dims : Nat := 0
  p0 : Nat := 0
  p1 : Nat := 0
  deriving DecidableEq, Repr

/-- All bits of a word. -/
def allBits : Nat := 0xFFFFFFFF

/-- The row of the command table. -/
def usesOf (c : Cmd) : Uses :=
  if c.opc = oMARK then { p0 := allBits, p1 := allBits }
  else if c.opc = oSWAIT then { p0 := 0x3FF, p1 := allBits }
  else if c.opc = oSSIG then { p0 := 0x3FF, p1 := 0xFFFF }
  else if c.opc = oTWAIT then { a := true, dims := 1, p1 := 0x1F }
  else if c.opc = oENQ ∨ c.opc = oDEQ then { a := true, o := true, dims := 1 }
  else if c.opc = oMOV then { a := true, o := true, dims := 2, p0 := allBits, p1 := allBits }
  else if c.opc = oGATH ∨ c.opc = oSCAT then { a := true, b := true, o := true, fb := true, dims := 2, p0 := allBits }
  else if c.opc = oMMA then { a := true, b := true, o := true, fa := true, fb := true, fo := true, dims := 3, p0 := allBits }
  else if c.opc = oCONV then
    { a := true, b := true, o := true, fa := true, fb := true, fo := true, dims := 4, p0 := allBits, p1 := allBits }
  else if c.opc = oDWCV then
    { a := true, b := true, o := true, fa := true, fb := true, fo := true, dims := 3, p0 := allBits, p1 := allBits }
  else if c.opc = oPOOL then { a := true, o := true, fa := true, fo := true, dims := 3, p0 := allBits }
  else if c.opc = oRED then { a := true, o := true, fa := true, fo := true, dims := 2 }
  else if c.opc = oVOP then
    { a := true, b := true, o := true, fa := true, fb := decide (c.mode ≤ 4), fo := true, dims := 2, p0 := 1 }
  else if c.opc = oACT then { a := true, b := true, o := true, fa := true, fo := true, dims := 2, p0 := 0xFFFF, p1 := 0xFFFF }
  else if c.opc = oQSCAN ∨ c.opc = oQUNPK then { a := true, o := true, fa := true, fo := true, dims := 2, p0 := allBits }
  else if c.opc = oQPACK then { a := true, b := true, o := true, fa := true, fb := true, fo := true, dims := 2, p0 := allBits }
  else if c.opc = oRSCL then { a := true, o := true, fa := true, fo := true, dims := 2, p0 := 0xFF3FFFFF, p1 := allBits }
  else {}

/-- A format field: one of the ten codes where used, else 0. -/
def fmtBad (used : Bool) (f : Nat) : Bool := if used then decide (9 < f) else f != 0

/-- Bits set outside a mask. -/
def outside (mask : Nat) (w : Word) : Bool := (w &&& ~~~(BitVec.ofNat 32 mask)) != 0

/-- A reserved encoding of MODE. -/
def modeBad (c : Cmd) : Bool :=
  if c.opc = oPOOL then decide (2 < c.mode)
  else if c.opc = oRED then c.mode % 4 == 3 || decide (7 < c.mode)
  else if c.opc = oVOP then decide (7 < c.mode)
  else if c.opc = oRSCL then decide (1 < c.mode)
  else c.mode != 0

/-- A reserved field of the QP block, or a 4-bit zero point with upper bits (13 R528). -/
def qpBad (c : Cmd) (q : QP) : Bool :=
  let prod := c.opc == oMMA || c.opc == oCONV || c.opc == oDWCV
  let fz := if c.opc = oQPACK then c.fo else c.fa
  hasQp c && (q.rsv != 0 || (c.opc != oQSCAN && decide (fz ≤ 1) && decide (15 < q.za)) ||
    (prod && decide (c.fb ≤ 1) && decide (15 < q.zb)))

/-- Case 242. -/
def rsvdCase (c : Cmd) (q : QP) (os : List Opd) : Bool :=
  let u := usesOf c
  c.rsv != 0 || modeBad c || fmtBad u.fa c.fa || fmtBad u.fb c.fb || fmtBad u.fo c.fo ||
    (!u.a && c.a != 0) || (!u.b && c.b != 0) || (!u.o && c.o != 0) ||
    (decide (u.dims < 1) && c.d0 != 0) || (decide (u.dims < 2) && c.d1 != 0) || (decide (u.dims < 3) && c.d2 != 0) ||
    (decide (u.dims < 4) && c.d3 != 0) || outside u.p0 c.p0 || outside u.p1 c.p1 ||
    os.any (fun o => o.ref == .bad) || qpBad c q

/-! ### Operands (R488, R489, R429, R436) -/

/-- Case 243 for one operand: not reachable, or NONE where one is needed. -/
def addrBad (s : State) (e : Eng) (o : Opd) : Bool :=
  match o.ref with
  | .mem a => !o.memOk || (reach s e a o.span o.wr).isNone
  | .scc off => !(e == .su && o.memOk && decide (off + o.span ≤ 0x10000))
  | .queue _ => !o.queueOk || e == .sce
  | .none => o.need
  | .bad => false

/-- Case 244 for one operand: a reference to memory or to the scale cache that is not aligned (R489); an ADAPT record asks 8 bytes
(13 R549). -/
def alignBad (o : Opd) : Bool :=
  match o.ref with
  | .mem a => a % o.align != 0
  | .scc off => off % o.align != 0
  | _ => false

/-- The queue that an operand names, when it is bound. -/
def opdQueue (en : Entry) (o : Opd) : Option Nat :=
  match o.ref with
  | .queue q => portQueue en q
  | _ => none

/-- Case 245 for one operand: not bound, not of the image, not owned, or of a class without this end. -/
def objBad (s : State) (en : Entry) (o : Opd) : Bool :=
  match o.ref with
  | .queue q0 =>
    (match portQueue en q0 with
     | none => true
     | some q =>
       let d := qd s q
       let img := entryImg s en
       let own := if d.scope = scJob then (prodQs s en ++ consQs s en).contains q
         else if o.wr then (prodQs s en).contains q else (consQs s en).contains q
       let cls := if o.wr then d.cls == clsData || d.cls == clsSink else d.cls == clsData || d.cls == clsSrc
       !(img.queues.any (fun x => x.1 == q)) || !own || !cls)
  | _ => false

/-- Items that a command writes to queue q. -/
def writeItems (s : State) (en : Entry) (os : List Opd) (q : Nat) : Nat :=
  ((os.filter (fun o => o.wr && opdQueue en o == some q)).map (fun o => o.qbytes / (qd s q).item)).foldl (· + ·) 0

/-- Case 246 for one operand: part of an item, or a queue that cannot hold the command's output on it (11 R436). -/
def depthBad (s : State) (en : Entry) (os : List Opd) (o : Opd) : Bool :=
  match opdQueue en o with
  | some q => o.qbytes % (qd s q).item != 0 || (o.wr && decide ((qd s q).depth < writeItems s en os q))
  | none => false

/-- Items that a command reads from queue q. -/
def readItems (s : State) (en : Entry) (os : List Opd) (q : Nat) : Nat :=
  ((os.filter (fun o => !o.wr && opdQueue en o == some q)).map (fun o => o.qbytes / (qd s q).item)).foldl (· + ·) 0

/-- Case 247 for one operand: a decoupling queue read beyond the lane's coverage. -/
def coverBad (s : State) (l : Lane) (en : Entry) (os : List Opd) (o : Opd) : Bool :=
  match opdQueue en o with
  | some q => !o.wr && (qd s q).tlink != 0 && decide (look l.cov q 0 < readItems s en os q)
  | none => false

/-- The first operand that fails a test, as a failed check. -/
def firstBad (en : Entry) (os : List Opd) (cas code : Nat) (f : Opd → Bool) : Option Ill :=
  (os.find? f).map (fun o => ⟨cas, code, opdQueue en o⟩)

/-! ### Own cases -/

def is4or8 (f : Nat) : Bool := decide (f ≤ 3)

/-- The legal case of MMA, CONV and DWCV (R498). -/
def prodCase (sce : Bool) (c : Cmd) (q : QP) : Option Nat :=
  let none' := Ref.of (qpRef c) == .none
  let ints := is4or8 c.fa && is4or8 c.fb
  if c.fo = fI32 ∧ ints ∧ (none' ∨ q.g = 0) ∧ q.e = 0 then
    some (if c.fa ≤ 1 ∧ c.fb ≤ 1 then 2 else if c.fa ≤ 1 ∨ c.fb ≤ 1 then 3 else 1)
  else if sce then none
  else if c.fo = fI32 ∧ c.fa = fI16 ∧ (c.fb = fI8 ∨ c.fb = fU8 ∨ c.fb = fI16) ∧ q.e = 0 ∧
      (none' ∨ (q.za = 0 ∧ q.zb = 0 ∧ q.zbrow = false)) then some 4
  else if c.fo = fBF16 ∨ c.fo = fFP16 then
    if none' ∧ (c.fa = fE4M3 ∨ c.fa = fE5M2) ∧ (c.fb = fE4M3 ∨ c.fb = fE5M2) then some 5
    else if none' ∧ c.fa = fBF16 ∧ c.fb = fBF16 then some 6
    else if none' ∧ c.fa = fFP16 ∧ c.fb = fFP16 then some 7
    else if ints ∧ q.g ≠ 0 ∧ c.opc ≠ oDWCV then some 8
    else none
  else none

/-- Shape checks of windowed commands (R498 case 10, R500 case 7). -/
def windowBad (c : Cmd) (chans : Bool) : Bool :=
  let g := Geo.of c.p0
  c.d0 == 0 || c.d1 == 0 || c.d2 == 0 || (chans && c.d3 == 0) || g.bad || g.ho c.d0 == 0 || g.wo c.d1 == 0

def prodIll (sce : Bool) (c : Cmd) (q : QP) : Option Ill :=
  match prodCase sce c q with
  | none => some ⟨9, illFMT, none⟩
  | some k =>
    let shape := if c.opc = oMMA then c.d0 == 0 || c.d1 == 0 || c.d2 == 0 else windowBad c (c.opc == oCONV)
    if shape then some ⟨10, illSHAPE, none⟩
    else if k = 8 ∧ redLen c % q.g ≠ 0 then some ⟨11, illSHAPE, none⟩
    else none

def isInt5 (f : Nat) : Bool := decide (f ≤ 4)

def isFloatF (f : Nat) : Bool := decide (6 ≤ f) && decide (f ≤ 9)

/-- POOL and RED (R500); on the SCE, INT32 results only (10 R383). -/
def reduceIll (sce : Bool) (c : Cmd) : Option Ill :=
  let sum := c.mode % 4 == 2
  let ok := if sum then (isInt5 c.fa && c.fo == fI32) || (isFloatF c.fa && (c.fo == fBF16 || c.fo == fFP16)) ||
                (c.opc == oRED && c.fa == fI32 && c.fo == fI32)
            else c.fo == c.fa && (isInt5 c.fa || isFloatF c.fa || (c.opc == oRED && c.fa == fI32))
  let ok := ok && (!sce || (is4or8 c.fa && c.fo == fI32))
  if !ok then some ⟨6, illFMT, none⟩
  else if (if c.opc = oPOOL then windowBad c false else c.d0 == 0 || c.d1 == 0) then some ⟨7, illSHAPE, none⟩
  else none

/-- VOP (R501). -/
def vopIll (sce : Bool) (c : Cmd) : Option Ill :=
  let h := fun f => f == fBF16 || f == fFP16
  let bNone := Ref.of c.b == .none
  let ok :=
    if c.mode ≤ 4 then
      ((c.mode != 2 && decide (c.fa ≤ 5) && c.fa == c.fb && c.fa == c.fo) || (h c.fa && h c.fb && h c.fo) ||
        (c.mode == 2 && isInt5 c.fa && isInt5 c.fb && c.fo == fI32))
    else if c.mode ≤ 6 then
      bNone && c.fo == c.fa && (c.fa == fI8 || c.fa == fI16 || c.fa == fI32 || h c.fa)
    else bNone
  let ok := ok && (!sce || (isInt5 c.fa && (decide (4 < c.mode) || isInt5 c.fb) && decide (c.fo ≤ 5)))
  if !ok then some ⟨6, illFMT, none⟩
  else if c.d0 = 0 ∨ c.d1 = 0 then some ⟨7, illSHAPE, none⟩
  else none

/-- P0 ≥ P1 as BF16 values; a NaN compares false (R502; DEDUCED, log 23). -/
def rangeBad (c : Cmd) : Bool :=
  match dyOf fBF16 (bits c.p0 15 0), dyOf fBF16 (bits c.p1 15 0) with
  | some lo, some hi => !lo.lt hi
  | _, _ => false

/-- ACT (R502). -/
def actIll (sce : Bool) (c : Cmd) : Option Ill :=
  let i8 := fun f => f == fI8 || f == fU8
  let h := fun f => f == fBF16 || f == fFP16
  let ok := (i8 c.fa && (i8 c.fo || (h c.fo && !sce))) || (!sce && h c.fa && c.fo == c.fa && !rangeBad c)
  if !ok then some ⟨4, illFMT, none⟩
  else if c.d0 = 0 ∨ c.d1 = 0 then some ⟨5, illSHAPE, none⟩
  else none

/-- QSCAN, QPACK, QUNPK (R503). -/
def quantIll (c : Cmd) (q : QP) : Option Ill :=
  let h := fun f => f == fBF16 || f == fFP16
  let ok :=
    if c.opc = oQSCAN then (isFloatF c.fa || c.fa == fI16 || c.fa == fI32) && c.fo == fBF16
    else if c.opc = oQPACK then h c.fa && c.fb == fBF16 && is4or8 c.fo
    else is4or8 c.fa && h c.fo
  if !ok then some ⟨2, illFMT, none⟩
  else if c.d0 = 0 ∨ c.d1 = 0 ∨ c.d0 % rowGroup c q ≠ 0 then some ⟨3, illSHAPE, none⟩
  else none

/-- A reference into the scale cache. -/
def Ref.isScc : Ref → Bool
  | .scc _ => true
  | _ => false

/-- RSCL (R504): table mode has its table in the scale cache. -/
def rsclIll (sce : Bool) (c : Cmd) : Option Ill :=
  let table := c.mode % 2 == 1
  let ok := (if table then c.fa == fI32 && (Ref.of c.p1).isScc else c.fa == fI16 || c.fa == fI32) && isInt5 c.fo && (!sce || c.fo == fI8 || c.fo == fU8)
  if !ok then some ⟨3, illFMT, none⟩
  else if c.d0 = 0 ∨ c.d1 = 0 ∨ (table ∧ 4096 < c.d0) then some ⟨4, illSHAPE, none⟩
  else none

/-- The counter is valid for the job: of its image, and owned when it is a JOB counter (R506 case 2). -/
def counterOk (s : State) (l : Lane) (en : Entry) (n : Nat) : Bool :=
  (scSt s n).valid && (entryImg s en).counters.any (fun x => x.1 == n) &&
    (!(scSt s n).job || ownerOf s (.jobC n) == some l.entry)

/-- SWAIT and SSIG (R506). -/
def counterIll (s : State) (l : Lane) (en : Entry) (c : Cmd) : Option Ill :=
  let n := bits c.p0 9 0
  if !counterOk s l en n then some ⟨2, illOBJECT, none⟩
  else if c.opc = oSSIG ∧ bits c.p1 15 0 = 0 then some ⟨3, illSHAPE, none⟩
  else if c.opc = oSSIG ∧ (scSt s n).job = false ∧ 8 ≤ (en.defer.filter (fun x => x.1 != n)).length then some ⟨4, illSSIG, none⟩
  else none

/-- Queues that hold coverage in a lane. -/
def coveredQs (l : Lane) : List Nat := (l.cov.filter (fun x => x.2 != 0)).map Prod.fst

/-- TWAIT (R506, R512). -/
def twaitIll (s : State) (l : Lane) (en : Entry) (c : Cmd) : Option Ill :=
  match Ref.of c.a with
  | .queue q0 =>
    (match portQueue en q0 with
     | none => none
     | some q =>
       let d := qd s q
       if d.tlink = 0 ∨ d.cls ≠ clsData then some ⟨2, illOBJECT, some q⟩
       else if c.d0 = 0 ∨ d.depth < c.d0 then some ⟨3, illDEPTH, some q⟩
       else if bits c.p1 4 0 < 4 ∨ 23 < bits c.p1 4 0 then some ⟨4, illSHAPE, some q⟩
       else if 8 ≤ ((coveredQs l).filter (· != q)).length then some ⟨5, illOBJECT, some q⟩
       else none)
  | _ => none

/-- The illegal cases of the command itself, in ascending order. -/
def ownIll (s : State) (e : Eng) (l : Lane) (en : Entry) (c : Cmd) (q : QP) : Option Ill :=
  let sce := e == .sce
  if c.opc = oMMA ∨ c.opc = oCONV ∨ c.opc = oDWCV then prodIll sce c q
  else if c.opc = oPOOL ∨ c.opc = oRED then reduceIll sce c
  else if c.opc = oVOP then vopIll sce c
  else if c.opc = oACT then actIll sce c
  else if c.opc = oQSCAN ∨ c.opc = oQPACK ∨ c.opc = oQUNPK then quantIll c q
  else if c.opc = oRSCL then rsclIll sce c
  else if c.opc = oMOV then
    if c.d0 = 0 ∨ c.d1 = 0 ∨ (1 < c.d1 ∧ (c.p0.toNat < c.d0 ∨ c.p1.toNat < c.d0)) then some ⟨2, illSHAPE, none⟩ else none
  else if c.opc = oGATH ∨ c.opc = oSCAT then
    if c.fb ≠ fI16 ∧ c.fb ≠ fI32 then some ⟨2, illFMT, none⟩
    else if c.d0 = 0 ∨ c.d1 = 0 ∨ c.p0 = 0 then some ⟨3, illSHAPE, none⟩
    else none
  else if c.opc = oENQ ∨ c.opc = oDEQ then (if c.d0 = 0 then some ⟨2, illSHAPE, none⟩ else none)
  else if c.opc = oSWAIT ∨ c.opc = oSSIG then counterIll s l en c
  else if c.opc = oTWAIT then twaitIll s l en c
  else none

/-- Cases 243 to 247 for one operand, in ascending order. -/
def opdBad (s : State) (e : Eng) (l : Lane) (en : Entry) (os : List Opd) (o : Opd) : Bool :=
  addrBad s e o || alignBad o || objBad s en o || depthBad s en os o || coverBad s l en os o

/-- The queue from which the command's QP block is still to come: the reference is good, and not enough items are visible. The sizes of
the other operands come from the block, so the cases from 242 on are checked once it is there (DESIGN CHOICE, log 26). -/
def qpAwaited (s : State) (e : Eng) (l : Lane) (en : Entry) (c : Cmd) : Option Nat :=
  if hasQp c && (qpOf s e l en c).isNone && !opdBad s e l en [qpOpd c] (qpOpd c) then opdQueue en (qpOpd c) else none

/-- The first illegal case that matches: the common cases in ascending order, then the command's own (R495). -/
def illegal (s : State) (e : Eng) (l : Lane) (en : Entry) (c : Cmd) : Option Ill :=
  let q := (qpOf s e l en c).getD .absent
  let os := opdsOf s en c q
  if !opcodes.contains c.opc then some ⟨240, illOPC, none⟩
  else if !engineRuns e c then some ⟨241, illENGINE, none⟩
  else if (qpAwaited s e l en c).isSome then none
  else if rsvdCase c q os then some ⟨242, illRSVD, none⟩
  else (firstBad en os 243 illADDR (addrBad s e)).orElse fun _ =>
    (firstBad en os 244 illALIGN alignBad).orElse fun _ =>
    (firstBad en os 245 illOBJECT (objBad s en)).orElse fun _ =>
    (firstBad en os 246 illDEPTH (depthBad s en os)).orElse fun _ =>
    (firstBad en os 247 illOBJECT (coverBad s l en os)).orElse fun _ =>
    ownIll s e l en c q

end Sys2Proof.Machine
end

