-- ==== Sys2Proof/Machine/Engine.lean ====
section
/-! DEFINITION. How an engine carries out the present command of its lane: readiness, reservation and input items (11 R433, R434),
operand bytes, results and where they go, saturation counters, completion (12 R474 to R485, R491, R515; 13 R557 to R562). -/

namespace Sys2Proof.Machine

open Sys2Proof

/-! ### Saturation counters (13 R557 to R562) -/

/-- A saturation counter's registers. -/
def satSt (s : State) (n : Nat) : Sat := nth s.sats n ⟨0, 0, 0⟩

/-- The counter counts events of this engine and model. -/
def satOn (c : Sat) (e : Eng) (model : Nat) : Bool :=
  bit c.cfg 31 && bit c.cfg (16 + engIx e) && (!bit c.cfg 30 || bits c.cfg 29 25 == model)

/-- The count rises from below a threshold that is not 0 to it or above, when it becomes v (R560). -/
def Sat.rises (c : Sat) (v : Nat) : Bool := c.thr != 0 && decide (c.cnt.toNat < c.thr.toNat) && decide (c.thr.toNat ≤ v)

/-- The count of a saturation counter becomes v: where it rises from below a threshold that is not 0 to it or above, `SAT_HIT` is set and an
event raised (R560). -/
def satSet (s : State) (n v : Nat) (e : Eng) (job : BitVec 16) (off : Word) : State :=
  let c := satSt s n
  let t := { s with sats := upd s.sats n (fun c => { c with cnt := BitVec.ofNat 32 v }) }
  if c.rises v then
    addEvent (stamped { t with satHit := t.satHit ||| BitVec.ofNat 64 (2 ^ n) }) true
      (.saturation n e job off (BitVec.ofNat 32 (dtNow t)))
  else t

/-- One counter takes the kinds of a command (R559). -/
def satCount (s : State) (e : Eng) (model : Nat) (job : BitVec 16) (off : Nat) (kinds : List Nat) (n : Nat) : State :=
  let c := satSt s n
  let k := if satOn c e model then (kinds.filter (fun k => bit c.cfg (8 + k))).length else 0
  if k = 0 then s else satSet s n (Nat.min 0xFFFFFFFF (c.cnt.toNat + k)) e job (BitVec.ofNat 32 off)

/-- The sixteen bytes of a saturation event (R560). -/
def satEventBytes (n : Nat) (e : Eng) (job : BitVec 16) (off dt : Word) : List Byte :=
  [0x53, BitVec.ofNat 8 (n % 64), BitVec.ofNat 8 (engIx e % 8), 0] ++ leBytes 2 job.toNat ++ leBytes 2 0 ++ leBytes 4 off.toNat ++ leBytes 4 dt.toNat

/-- A write of `SAT_CNT`; the engine, job and offset of an event that it raises are free values (DESIGN CHOICE, log 102). -/
def satCntWrite (s : State) (n : Nat) (v : Word) : State :=
  let k := s.freeK
  let s := if (satSt s n).rises v.toNat then { s with freeK := k + 1 } else s
  let e := if Config.satWriteEng k % 5 = 4 then Eng.su else teOf (Config.satWriteEng k % 5)
  satSet s n v.toNat e (Config.satWriteJob k) (Config.satWriteOff k)

/-- Every counter takes the kinds of a command; the SCE is not counted. -/
def satAll (s : State) (e : Eng) (model : Nat) (job : BitVec 16) (off : Nat) (kinds : List Nat) : State :=
  if e = .sce ∨ kinds.isEmpty then s else (List.range 64).foldl (fun t n => satCount t e model job off kinds n) s

/-- A read of a saturation register of the scale unit (R562). -/
def satRead (s : State) (off : Nat) : Option Word :=
  if off = 0x200 then some (s.satHit.setWidth 32)
  else if off = 0x204 then some ((s.satHit >>> 32).setWidth 32)
  else if 0x400 ≤ off ∧ off < 0x800 ∧ off % 4 = 0 then
    let c := satSt s ((off - 0x400) / 16)
    match off / 4 % 4 with
    | 0 => some c.cfg
    | 1 => some c.thr
    | 2 => some c.cnt
    | _ => some 0
  else none

/-- `SAT_CFG` as written: on H grade `ENG` bits 2 and 3 read 0. -/
def satCfgOf (s : State) (old v : Word) : Word :=
  let w := writeReg [⟨31, 31, .rw, 0, 1⟩, ⟨30, 30, .rw, 0, 1⟩, ⟨29, 25, .rw, 0, 31⟩, ⟨20, 16, .rw, 0, 31⟩, ⟨12, 8, .rw, 0, 31⟩] old v
  if s.fuses.hgrade then setBits w 19 18 0 else w

/-- A write of a saturation register. -/
def satWrite (off : Nat) (v : Word) : RegAct := fun s =>
  if off = 0x200 then ({ s with satHit := s.satHit &&& ~~~(v.setWidth 64) }, stOk)
  else if off = 0x204 then ({ s with satHit := s.satHit &&& ~~~(v.setWidth 64 <<< 32) }, stOk)
  else if (satRead s off).isSome then
    let n := (off - 0x400) / 16
    let set := fun (f : Sat → Sat) => ({ s with sats := upd s.sats n f }, stOk)
    match off / 4 % 4 with
    | 0 => set (fun c => { c with cfg := satCfgOf s c.cfg v })
    | 1 => set (fun c => { c with thr := v })
    | 2 => (satCntWrite s n v, stOk)
    | _ => (s, stOk)
  else (s, stAddr)

/-! ### Status registers (12 R515) -/

/-- `ENG_STATUS.STATE`. -/
def engState (s : State) (e : Eng) : Nat :=
  match (engSt s e).cur with
  | none => 0
  | some l =>
    match l.stage with
    | .ready => 1
    | .stallIn _ => 2
    | .stallOut _ => 3
    | .abandon => 7
    | .waitSc _ _ => 4
    | .waitTile _ _ _ => 5
    | .fenced => 6
    | .executed => 1

/-- A read of an engine status register. -/
def engRead (s : State) (e : Eng) (off : Nat) : Option Word :=
  let g := engSt s e
  if off = 0x100 then some (mkWord [(29, 3, engState s e), (16, 8, g.opc.toNat), (0, 16, g.job.toNat)])
  else if off = 0x104 then some g.pc
  else if off = 0x108 then some g.cmds
  else if off = 0x10C then some (mkWord [(0, 16, g.faults)])
  else none

/-! ### Readiness -/

/-- The array island of a tensor engine. -/
def arrayIsl : Eng → Option Nat
  | .te0 => some 27
  | .te1 => some 28
  | .te2 => some 29
  | .te3 => some 30
  | _ => none

/-- The engine executes: powered, clocked, not held in reset, PLL0 locked for all but the SCE (12 R473). -/
def engineReady (s : State) (e : Eng) : Bool :=
  !(islSt s (engIsl e)).held && pdOn s (islPd (engIsl e)) &&
    (match e with
     | .sce => pdOn s 4
     | _ => !s.clk.relock0 && !(islSt s ((arrayIsl e).getD (engIsl e))).held)

/-- The ledger entry of an engine's lane; the SCE's lane belongs to no job. -/
def laneEntry (s : State) (e : Eng) (l : Lane) : Entry :=
  match e with
  | .sce => .free
  | _ => entrySt s l.entry

/-- A fault of the present command: the SCE stops (10 R384); any other engine faults its job. -/
def failCmd (s : State) (e : Eng) (l : Lane) (code cas : Nat) (q : Option Nat) : State :=
  match e with
  | .sce => sceStop s (BitVec.ofNat 8 code) (BitVec.ofNat 8 cas) l.off
  | _ => engFault s e (BitVec.ofNat 8 code) (BitVec.ofNat 8 cas) q false

/-! ### Operand bytes -/

/-- A reference moved on. -/
def Ref.plus (r : Ref) (n : Nat) : Ref :=
  match r with
  | .mem a => .mem (a + n)
  | .scc o => .scc (o + n)
  | x => x

/-- n bytes at an offset of an operand, as the engine's lane sees memory; a queue operand reads the bytes taken from its queue. -/
def opdBytes (s : State) (e : Eng) (l : Lane) (o : Opd) (off n : Nat) : List Byte :=
  match o.ref with
  | .queue _ => ((l.got o.role).drop off).take n
  | r => (refBytes (viewOf s e) e (r.plus off) n).getD []

/-- An uncorrectable error lies in n bytes at an offset of an operand. -/
def opdEcc (s : State) (e : Eng) (o : Opd) (off n : Nat) : Bool :=
  match o.ref with
  | .mem a => (match reach s e (a + off) n o.wr with
    | some p => eccHit (viewOf s e) p n
    | none => false)
  | .scc c => sccHit s (c + off) n
  | _ => false

/-- A lane's bytes to memory: they wait for a FENCE or SSIG of the lane before another lane sees them (R479); the SCE has no such
command and writes at once. -/
def laneWrite (s : State) (e : Eng) (p : Nat) (bs : List Byte) : State :=
  match e with
  | .sce => writeBytes s p bs
  | _ => setLane s e (fun l => { l with wbuf := l.wbuf ++ [(p, bs)] })

/-- Bytes written at an offset of a memory or scale-cache operand. The scale cache is the scale unit's own, which runs one lane at a
time. -/
def opdWrite (s : State) (e : Eng) (o : Opd) (off : Nat) (bs : List Byte) : State :=
  match o.ref with
  | .mem a => (match reach s e (a + off) bs.length true with
    | some p => laneWrite s e p bs
    | none => s)
  | .scc c => sccWrite s (c + off) bs
  | _ => s

/-- The clay tile that an operand lies in. -/
def opdTile (o : Opd) : Option Tile :=
  match o.ref with
  | .mem a => tileOf a
  | _ => none

/-- An operand lies in a tile that has been declared failed (17 R669). -/
def onFailedTile (s : State) (os : List Opd) : Bool :=
  os.any (fun o =>
    match opdTile o with
    | some t => (tileSt s t).failed
    | none => false)

/-- Items that an operand gives to or takes from its queue. -/
def opdItems (s : State) (o : Opd) (q : Nat) : Nat := o.qbytes / (qd s q).item

/-- A range of memory cannot be reached now: its tile's link is not up (17 R658), or an island that serves it is held in reset
(05 R713). -/
def rangeWaits (s : State) (p n : Nat) : Bool :=
  rangeHeld s p n ||
    (match tileOf p with
     | some t => (tileSt s t).link != .up
     | none => false)

/-- The command waits: memory or a queue's storage that it reaches cannot be reached now, or the queue manager is held in reset. -/
def mustWait (s : State) (e : Eng) (en : Entry) (os : List Opd) : Bool :=
  os.any (fun o =>
    match o.ref with
    | .mem a =>
      (match reach s e a o.span o.wr with
       | some p => rangeWaits s p o.span
       | none => false)
    | .queue _ =>
      !islRuns s 24 ||
        (match opdQueue en o with
         | some q =>
           let d := qd s q
           if o.wr then itemsHeld s d d.wp (opdItems s o q) else itemsHeld s d d.rp (Nat.min d.vis (opdItems s o q))
         | none => false)
    | _ => false)

/-! ### Reservation and input (11 R433, R434, 12 R491) -/

/-- The output space that a command asks for, in one request: its items on every output queue (R434). -/
def outNeeds (s : State) (en : Entry) (os : List Opd) : List (Nat × Nat) :=
  ((os.filter (fun o => o.wr)).filterMap (opdQueue en)).eraseDups.map (fun q => (q, writeItems s en os q))

/-- The whole request can be granted (R434). -/
def allGrantable (s : State) (req : List (Nat × Nat)) : Bool := req.all (fun x => grantable s x.1 x.2)

/-- The space is held; a DROP_OLDEST queue holds none. -/
def holdSpace (s : State) (e : Eng) (req : List (Nat × Nat)) : State :=
  setLane s e (fun l => { l with stage := .ready, resv := req.filter (fun x => !(qd s x.1).ovf) })

/-- What taking items for an operand leaves: the state, the operand's bytes so far, whether an item held an error. -/
structure Taken where
  s : State
  got : List Byte
  bad : Bool

/-- The items of queue q that are visible are read, as many as the operand still needs. -/
def takeItems (s : State) (q need : Nat) (got : List Byte) : Taken :=
  let d := qd s q
  let n := Nat.min d.vis ((need - got.length) / d.item)
  let at' := d.addrs d.rp n
  { s := updQd s q (fun d => d.consume n), got := got ++ (at'.map (fun a => readBytes s a d.item)).flatten,
    bad := at'.any (fun a => eccHit s a d.item) }

/-- Coverage falls by one for each item read (12 R511). -/
def uncover (q n : Nat) (l : Lane) : Lane := { l with cov := put 0 l.cov q (look l.cov q 0 - n) }

/-- Where taking the inputs of a command ends: all are there, the lane stalls on an empty queue, or an item held an error. -/
inductive Input where
  | ready
  | stall (q : Nat)
  | ecc (q : Nat)
  deriving DecidableEq, Repr

/-- The input items of one operand. -/
def takeOpd (s : State) (e : Eng) (en : Entry) (o : Opd) : State × Input :=
  match (engSt s e).cur, opdQueue en o with
  | some l, some q =>
    let got := l.got o.role
    let t := takeItems s q o.qbytes got
    let s := setLane t.s e (fun l => (uncover q ((t.got.length - got.length) / (qd s q).item) l).setGot o.role t.got)
    if t.bad then (s, .ecc q) else if t.got.length < o.qbytes then (s, .stall q) else (s, .ready)
  | _, _ => (s, .ready)

/-- The input items of operands in order. -/
def takeEach (s : State) (e : Eng) (en : Entry) : List Opd → State × Input
  | [] => (s, .ready)
  | o :: r =>
    let x := takeOpd s e en o
    match x.2 with
    | .ready => takeEach x.1 e en r
    | i => (x.1, i)

/-- The input items of a command: its QP block, which tells the sizes of the others, then the operands in the order of the command's
fields and of the QP block's (DEDUCED, log 71). -/
def takeInputs (s : State) (e : Eng) (en : Entry) (os : List Opd) : State × Input :=
  let ins := os.filter (fun o => !o.wr)
  takeEach s e en (ins.filter (fun o => o.role == .qp) ++ ins.filter (fun o => o.role != .qp))

/-- The lane stalls on an empty queue; a stall that can never end is an order inversion (14 R574). -/
def stallOn (s : State) (e : Eng) (q : Nat) : State :=
  let t := setLane s e (fun l => { l with stage := .stallIn (BitVec.ofNat 14 q) })
  match (engSt t e).cur with
  | some l => if inverted t l.entry q then engFault t e cInversion 0 (some q) true else t
  | none => t

/-! ### Completion (12 R477) -/

/-- The ADAPT record of a completed QPACK is written (13 R552, R553). -/
def writeAdapt (s : State) (l : Lane) : State :=
  match l.adapt with
  | some (off, bs) => sccWrite s off bs
  | none => s

/-- A completion event, if the command asks for one; the SCE writes none (10 R385). -/
def completionEvent (s : State) (e : Eng) (l : Lane) : State :=
  if (cmdAt s (l.base + l.off)).evt && e != .sce then
    addEvent s false (.completion e (laneEntry s e l).job (BitVec.ofNat 32 l.off))
  else s

/-- Completion events of an engine that are not yet written (11 R464). -/
def eventsHeld (s : State) (e : Eng) : Nat :=
  (s.qm.evPend.filter (fun x =>
    match x.2 with
    | .completion e' _ _ => e' == e
    | _ => false)).length

/-- The present command asks for a completion event, and its engine holds eight already: it waits until one of them is written (11 R464). -/
def eventWaits (s : State) (e : Eng) (l : Lane) : Bool :=
  (cmdAt s (l.base + l.off)).evt && e != .sce && decide (8 ≤ eventsHeld s e)

/-- The command has executed; its completion is yet to come. -/
def executed (s : State) (e : Eng) : State := setLane s e (fun l => { l with stage := .executed, resv := [] })

/-- The present command has completed: it is counted, and the lane's next command may start. The SCE's lane ends after its
last command. -/
def completeCmd (s : State) (e : Eng) : State :=
  match (engSt s e).cur with
  | none => s
  | some l =>
    if eventWaits s e l then executed s e
    else
      let s := completionEvent (writeAdapt s l) e l
      let last := e == .sce && decide (l.ncmd ≤ l.off / 32 + 1)
      let l' := { l with off := l.off + 32, stage := .ready, ins := [], resv := [], adapt := none }
      showLane (updEng s e (fun g => { g with cmds := g.cmds + 1, cur := if last then none else some l' })) e

/-! ### One command -/

/-- The present command of an engine, when it is about to start. -/
structure Start where
  l : Lane
  en : Entry
  c : Cmd
  q : QP
  os : List Opd

/-- The command at the front of an engine's lane. -/
def startOf (s : State) (e : Eng) : Option Start :=
  match (engSt s e).cur with
  | none => none
  | some l =>
    if l.stage ≠ .ready then none
    else
      let en := laneEntry s e l
      let c := cmdAt s (l.base + l.off)
      let q := (qpOf s e l en c).getD .absent
      some { l, en, c, q, os := opdsOf s en c q }

/-- The command has taken inputs or holds space: its start checks are behind it. -/
def Lane.begun (l : Lane) : Bool := !l.ins.isEmpty || !l.resv.isEmpty

/-- The whole word of a command lies in memory without error. -/
def fetchEcc (s : State) (l : Lane) : Bool := eccHit s (l.base + l.off) 32

/-- The failed check that the command's row of the table reports: cases 240 and 241 by any row, any other by the row of the
command's own opcode. -/
def startIll (s : State) (e : Eng) (opc : Nat) (x : Start) : Option Ill :=
  if x.l.begun then none
  else match illegal s e x.l x.en x.c with
    | some i => if x.c.opc = opc ∨ i.cas = 240 ∨ i.cas = 241 then some i else none
    | none => none

/-- An engine carries out its present command, if it has the given opcode: the checks, then `act`. -/
def runCmd (opc : Nat) (act : Start → State → State) (e : Eng) (s : State) : State :=
  if !engineReady s e then s
  else match startOf s e with
    | none => s
    | some x =>
      if rangeHeld s (x.l.base + x.l.off) 32 then s
      else if fetchEcc s x.l then failCmd (instant s) e x.l 0x10 0 none
      else match startIll s e opc x with
        | some i => failCmd (instant s) e x.l i.code i.cas i.q
        | none =>
          if x.c.opc ≠ opc then s
          else if onFailedTile s x.os then failCmd (instant s) e x.l 0x15 0 none
          else if mustWait s e x.en x.os then s
          else act x (instant s)

/-- An operand that a command reads whole holds an error; QPACK reads the ADAPT record at B before it writes it. -/
def operandEcc (s : State) (e : Eng) (os : List Opd) : Bool := os.any (fun o => (!o.wr || o.role == .b) && opdEcc s e o 0 o.span)

/-- A data or compute command: its QP block is there, output space is reserved, inputs are taken, then `work` runs on the lane as it then
stands. -/
def dataCmd (e : Eng) (work : Start → State → State) (x : Start) (s : State) : State :=
  match qpAwaited s e x.l x.en x.c with
  | some q => stallOn s e q
  | none =>
    let req := if x.l.resv.isEmpty then outNeeds s x.en x.os else []
    if req.isEmpty then inputs s
    else if allGrantable s req then inputs (holdSpace s e req)
    else setLane s e (fun l => { l with stage := .stallOut req })
where
  inputs (s : State) : State :=
    let r := takeInputs s e x.en x.os
    match r.2 with
    | .stall q => stallOn r.1 e q
    | .ecc q => failCmd r.1 e x.l 0x10 0 (some q)
    | .ready =>
      match (engSt r.1 e).cur with
      | some l => work { x with l } r.1
      | none => r.1

/-- Bytes of an operand that is written, given to its memory or to its queue. -/
def putOut (s : State) (e : Eng) (en : Entry) (o : Opd) (bs : List Byte) : State :=
  match opdQueue en o with
  | some q => pushItems s q (cutItems (qd s q).item (bs.length / (qd s q).item) bs)
  | none => opdWrite s e o 0 bs

end Sys2Proof.Machine
end

