-- ==== Sys2Proof/Machine/Compute.lean ====
section
/-! DEFINITION. The data and compute commands of the engines: what each reads, computes and writes (12 R492 to R505, chapter 13). -/

namespace Sys2Proof.Machine

open Sys2Proof

/-! ### Rows (R505, R491) -/

/-- A copy under way: the state, the bytes for an output queue, the fault that ended it (code and case). -/
structure Copy where
  s : State
  out : List Byte
  bad : Option (Nat × Nat)

/-- One row of n bytes: from an offset of operand `src` to an offset of operand `dst`; no offsets: a bad index. -/
def copyRow (e : Eng) (l : Lane) (src dst : Opd) (n : Nat) (k : Copy) (row : Option (Nat × Nat)) : Copy :=
  match k.bad, row with
  | some _, _ => k
  | none, none => { k with bad := some (illSHAPE, 4) }
  | none, some (a, b) =>
    if opdEcc k.s e src a n then { k with bad := some (0x10, 0) }
    else
      let bs := opdBytes k.s e l src a n
      match dst.ref with
      | .queue _ => { k with out := k.out.take b ++ bs ++ k.out.drop (b + n) }
      | _ => { k with s := opdWrite k.s e dst b bs }

/-- Rows copied in order; a fault ends the command, rows written before it stay (R495). `out` is what an output queue is given where no row
is written. -/
def copyRows (e : Eng) (x : Start) (src dst : Opd) (n : Nat) (rows : List (Option (Nat × Nat))) (out : List Byte) (s : State) : State :=
  let k := rows.foldl (copyRow e x.l src dst n) ⟨s, out, none⟩
  match k.bad with
  | some (code, cas) => failCmd k.s e x.l code cas none
  | none => executed (match dst.ref with
    | .queue _ => putOut k.s e x.en dst k.out
    | _ => k.s) e

/-- The operands A, B and O of a command. -/
def withOpd (x : Start) (r : Role) (f : Opd → State → State) (s : State) : State :=
  match opdRole x.os r with
  | some o => f o s
  | none => s

/-- Offset of row i: a pitch in memory, contiguous rows in a queue. -/
def rowOff (o : Opd) (pitch n i : Nat) : Nat :=
  match o.ref with
  | .queue _ => i * n
  | _ => i * pitch

/-- MOV: rows of D0 bytes. -/
def movWork (e : Eng) (x : Start) (s : State) : State :=
  withOpd x .a (fun a => withOpd x .o (fun o =>
    copyRows e x a o x.c.d0 ((List.range x.c.d1).map (fun i =>
      some (rowOff a x.c.p0.toNat x.c.d0 i, rowOff o x.c.p1.toNat x.c.d0 i))) [])) s

/-- The index vector of GATH and SCAT: signed values; none outside 0 to P0 − 1. -/
def indices (s : State) (e : Eng) (x : Start) (b : Opd) : List (Option Nat) :=
  ((elems x.c.fb (opdBytes s e x.l b 0 b.qbytes)).map (intVal x.c.fb)).map (fun v =>
    if 0 ≤ v ∧ v < (x.c.p0.toNat : Int) then some v.toNat else none)

/-- GATH: row i of the output is the table row that index i names. -/
def gathWork (e : Eng) (x : Start) (s : State) : State :=
  withOpd x .a (fun a => withOpd x .b (fun b => withOpd x .o (fun o s =>
    if opdEcc s e b 0 b.span then failCmd s e x.l 0x10 0 none
    else copyRows e x a o x.c.d0 ((indices s e x b).zipIdx.map (fun y =>
      y.1.map (fun v => (v * x.c.d0, y.2 * x.c.d0)))) [] s))) s

/-- What a table that goes to a queue holds in the rows that no index names: free values, drawn afresh. -/
def tableBase (s : State) (o : Opd) : State × List Byte :=
  match o.ref with
  | .queue _ => ({ s with freeK := s.freeK + 1 }, (List.range o.qbytes).map (Config.scatByte s.freeK))
  | _ => (s, [])

/-- SCAT: row i of the input goes to the table row that index i names. -/
def scatWork (e : Eng) (x : Start) (s : State) : State :=
  withOpd x .a (fun a => withOpd x .b (fun b => withOpd x .o (fun o s =>
    if opdEcc s e b 0 b.span then failCmd s e x.l 0x10 0 none
    else
      let t := tableBase s o
      copyRows e x a o x.c.d0 ((indices s e x b).zipIdx.map (fun y =>
        y.1.map (fun v => (y.2 * x.c.d0, v * x.c.d0)))) t.2 t.1))) s

/-- ENQ and DEQ: D0 items as one row. -/
def itemsWork (e : Eng) (x : Start) (s : State) : State :=
  withOpd x .a (fun a => withOpd x .o (fun o => copyRows e x a o a.qbytes [some (0, 0)] [])) s

/-! ### Arithmetic -/

/-- What a command makes: bytes for O, bytes for its other outputs, saturation kinds, free values drawn, and the ADAPT record. -/
structure Made where
  out : List Byte
  side : List (Role × List Byte)
  ev : List Nat
  free : Nat
  adapt : Option (Nat × List Byte)

/-- A command that makes elements of one output. -/
def madeOf (s : State) (fo : Nat) (ev0 : List Nat) (r : List Nat × List Nat) : Made :=
  { out := packElems fo (Config.padNibble s.freeK) r.1, side := [], ev := ev0 ++ r.2, free := r.1.length, adapt := none }

/-- The bytes of an operand by role. -/
def roleBytes (s : State) (e : Eng) (x : Start) (r : Role) : List Byte :=
  match opdRole x.os r with
  | some o => opdBytes s e x.l o 0 (match o.ref with
    | .queue _ => o.qbytes
    | _ => o.span)
  | none => []

/-- Element codes of an operand. -/
def roleCodes (s : State) (e : Eng) (x : Start) (r : Role) (f : Nat) : Codes := (elems f (roleBytes s e x r)).toArray

/-- The shape of a product. -/
def shapeOf (c : Cmd) : Product :=
  if c.opc = oMMA then mmaShape c.d0 c.d1 c.d2
  else if c.opc = oCONV then convShape (Geo.of c.p0) c.d0 c.d1 c.d2 c.d3
  else dwShape (Geo.of c.p0) c.d0 c.d1 c.d2

/-- Zero point of B for a channel (R494, R527). -/
def zbOf (c : Cmd) (q : QP) (zb : Codes) (n : Nat) : Int := if q.zbrow then zeroPt c.fb (zb.at n) else zeroPt c.fb q.zb

/-- The group and row of A that group g of output o reads, for MMA and for CONV whose groups lie in one pixel (DESIGN CHOICE, log 18). -/
def aGroup (c : Cmd) (q : QP) (o g : Nat) : Option (Nat × Nat) :=
  if c.opc = oMMA then some (o / c.d1 * (c.d2 / q.g) + g, o / c.d1)
  else
    let p := o / c.d3
    let geo := Geo.of c.p0
    let t := g * q.g
    (geo.pixel c.d0 c.d1 (p / geo.wo c.d1) (p % geo.wo c.d1) (t / c.d2 / geo.kw) (t / c.d2 % geo.kw)).map
      (fun i => (i * (c.d2 / q.g) + t % c.d2 / q.g, i))

/-- MMA, CONV, DWCV by their legal case (R498, R499, 13 R526 to R530, R542 to R544). -/
def prodMade (s : State) (e : Eng) (x : Start) : Made :=
  let c := x.c
  let q := x.q
  let p := shapeOf c
  let a := roleCodes s e x .a c.fa
  let b := roleCodes s e x .b c.fb
  let zb := roleCodes s e x .zb fU8
  let k := (prodCase (e == .sce) c q).getD 9
  let inEv := inputEv c.fa a.toList ++ inputEv c.fb b.toList
  if k ≤ 4 then
    let bias := roleCodes s e x .bias fI32
    madeOf s c.fo [] (prodInt p c.fa c.fb a b (zeroPt c.fa q.za) (zbOf c q zb) (fun n => intVal fI32 (bias.at n)))
  else if k ≤ 7 then madeOf s c.fo inEv (prodFloat p c.fa c.fb c.fo (if k = 5 then 32 else 16) s.freeK a b)
  else
    let inGrp := inputEv c.fo (roleCodes s e x .bias c.fo).toList ++ inputEv fBF16 (roleCodes s e x .s2a fBF16).toList ++
      inputEv fBF16 (roleCodes s e x .s2b fBF16).toList ++ inputEv fFP16 (roleCodes s e x .esc fFP16).toList
    if c.opc = oCONV ∧ c.d2 % q.g ≠ 0 then
      let esc := if q.e = 0 then 0 else Config.convEsc s.freeK % ((a.toList.filter (· == escCode c.fa)).length + 1)
      madeOf s c.fo (inGrp ++ List.replicate esc kESC)
        ((List.range p.n).map (fun o => storable c.fo (Config.convElem (s.freeK + o)).toNat),
         ((List.range p.n).map (fun o => kIf (Config.convSat (s.freeK + o)) kFLOAT)).flatten)
    else
    let biasB := roleBytes s e x .bias
    let bias := roleCodes s e x .bias c.fo
    let s2a := roleCodes s e x .s2a fBF16
    let s2b := roleCodes s e x .s2b fBF16
    let esc := roleCodes s e x .esc fFP16
    let grp : Group :=
      { g := q.g, e := q.e, za := zeroPt c.fa q.za, zb := zbOf c q zb,
        bias := fun n => if biasB.isEmpty then some .zero else dyOf c.fo (bias.at n),
        aGrp := aGroup c q, sca := roleCodes s e x .sca fU8, s2a, scb := roleCodes s e x .scb fU8, s2b, esc }
    madeOf s c.fo (inGrp ++
      surplusEsc c.fa q.e q.g a.toList) (prodGroup p grp c.fa c.fb c.fo s.freeK a b)

/-- POOL, RED, VOP, ACT, RSCL, QSCAN, QUNPK: element codes in, element codes out. -/
def plainMade (s : State) (e : Eng) (x : Start) : Made :=
  let c := x.c
  let q := x.q
  let a := roleCodes s e x .a c.fa
  let aEv := inputEv c.fa a.toList
  let k0 := s.freeK
  if c.opc = oPOOL then madeOf s c.fo aEv (pool (Geo.of c.p0) (c.mode % 4) c.fa c.fo c.d0 c.d1 c.d2 k0 a)
  else if c.opc = oRED then madeOf s c.fo aEv (red (c.mode / 4 % 2 == 1) (c.mode % 4) c.fa c.fo c.d0 c.d1 k0 a)
  else if c.opc = oVOP then
    let b := roleCodes s e x .b c.fb
    madeOf s c.fo (aEv ++ inputEv c.fb b.toList) (vop c.mode c.fa c.fb c.fo c.d0 c.d1 (bit c.p0 0) k0 a b)
  else if c.opc = oACT then
    madeOf s c.fo aEv (act c.fa c.fo (bits c.p0 15 0) (bits c.p1 15 0) k0 (c.d0 * c.d1) a
      (roleCodes s e x .table (if fInt c.fa then c.fo else fBF16)))
  else if c.opc = oRSCL then
    (if c.mode % 2 = 1 then madeOf s c.fo [] (rsclTable c.fo c.d0 (c.d0 * c.d1) c.p0 a (roleCodes s e x .table fI32))
     else madeOf s c.fo [] (rsclArith c.fa c.fo (c.d0 * c.d1) c.p0 a))
  else if c.opc = oQSCAN then madeOf s c.fo aEv (qscan c.fa (rowGroup c q) (c.d0 * c.d1) k0 a)
  else
    let s2a := roleCodes s e x .s2a fBF16
    madeOf s c.fo (inputEv fBF16 s2a.toList)
      (qunpk c.fa c.fo q.e (rowGroup c q) c.d0 c.d1 k0 (zeroPt c.fa q.za) a (roleCodes s e x .sca fU8) s2a
        (roleCodes s e x .esc fFP16))

/-- MA of a group after a step: upward to BF16 (13 R552). -/
def newMa (k : Nat) (used : Option Dy) (nowv : Option Dy) (free : Nat) : Nat :=
  match used, nowv with
  | some u, some n => decay k u n
  | some _, none => emptyGroup free
  | none, _ => canonNan fBF16

/-- An ADAPT record after a step by job `job`, from its words: used values as `MB`, new ones as `MA` (13 R551, R552). -/
def adaptRecord (ws : List Nat) (job : BitVec 16) (used : List Nat) (after : List Nat) : List Byte :=
  let h := setBits (setBits (BitVec.ofNat 32 (ws.getD 0 0)) 31 31 1) 15 0 job.toNat
  leBytes 4 h.toNat ++ leBytes 4 (ws.getD 1 0) ++ ((used.zip after).map (fun y => leBytes 4 (y.1 + 65536 * y.2))).flatten

/-- QPACK: maxabs from the tensor at B, or from the ADAPT record that B names (13 R534 to R538, R549 to R552). -/
def packMade (s : State) (e : Eng) (x : Start) : Made :=
  let c := x.c
  let q := x.q
  let g := rowGroup c q
  let n := groupsOf c q
  let a := roleCodes s e x .a c.fa
  let z := zeroPt c.fo q.za
  let bs := roleBytes s e x .b
  let rec' := match Ref.of c.b with
    | .scc off => some off
    | _ => none
  let ws := elems fI32 bs
  let seen := (ws.getD 0 0).testBit 31 && (ws.getD 0 0) % 65536 == x.en.job.toNat
  let used : List Nat := match rec' with
    | some _ => (List.range n).map (fun i => let w := ws.getD (2 + i) 0; if seen then w % 65536 else w / 65536)
    | none => elems fBF16 bs
  let ms := used.zipIdx.map (fun y => readMax (s.freeK + y.2) y.1)
  let p := qpack rec'.isSome c.fa c.fo q.e g c.d0 c.d1 z ms.toArray a
  let k := (ws.getD 0 0) / 65536 % 8
  let after := ms.zipIdx.map (fun y => newMa k y.1 (maxAbs c.fa (groupOf a g y.2)) (s.freeK + y.2))
  { out := packElems c.fo (Config.padNibble s.freeK) p.codes,
    side := [(.sca, packElems fU8 0 p.sca), (.s2a, packElems fBF16 0 p.s2a), (.esc, packElems fFP16 0 p.esc)],
    ev := inputEv c.fa a.toList ++ inputEv fBF16 used ++ p.ev, free := p.codes.length + n,
    adapt := rec'.map (fun off => (off, adaptRecord ws x.en.job used after)) }

/-- The results of a compute command take effect: outputs, counted saturations. -/
def applyMade (e : Eng) (x : Start) (m : Made) (s : State) : State :=
  let s := { s with freeK := s.freeK + m.free }
  let s := withOpd x .o (fun o s => putOut s e x.en o m.out) s
  let s := m.side.foldl (fun s y => withOpd x y.1 (fun o s => putOut s e x.en o y.2) s) s
  let s := satAll s e x.en.model x.en.job x.l.off m.ev
  executed (setLane s e (fun l => { l with adapt := m.adapt })) e

/-- A compute command whose inputs are there. -/
def computeWork (e : Eng) (make : State → Eng → Start → Made) (x : Start) (s : State) : State :=
  if operandEcc s e x.os then failCmd s e x.l 0x10 0 none else applyMade e x (make s e x) s

/-! ### The rows of the table -/

/-- ENQ (R491, R505). -/
def execEnq (e : Eng) (s : State) : Host.Outcome State Fault Refusal := .next (runCmd oENQ (dataCmd e (itemsWork e)) e s)

/-- DEQ (R491, R505). -/
def execDeq (e : Eng) (s : State) : Host.Outcome State Fault Refusal := .next (runCmd oDEQ (dataCmd e (itemsWork e)) e s)

/-- MOV (R505). -/
def execMov (e : Eng) (s : State) : Host.Outcome State Fault Refusal := .next (runCmd oMOV (dataCmd e (movWork e)) e s)

/-- GATH (R505). -/
def execGath (e : Eng) (s : State) : Host.Outcome State Fault Refusal := .next (runCmd oGATH (dataCmd e (gathWork e)) e s)

/-- SCAT (R505). -/
def execScat (e : Eng) (s : State) : Host.Outcome State Fault Refusal := .next (runCmd oSCAT (dataCmd e (scatWork e)) e s)

/-- MMA (R498). -/
def execMma (e : Eng) (s : State) : Host.Outcome State Fault Refusal :=
  .next (runCmd oMMA (dataCmd e (computeWork e prodMade)) e s)

/-- CONV (R498). -/
def execConv (e : Eng) (s : State) : Host.Outcome State Fault Refusal :=
  .next (runCmd oCONV (dataCmd e (computeWork e prodMade)) e s)

/-- DWCV (R498). -/
def execDwcv (e : Eng) (s : State) : Host.Outcome State Fault Refusal :=
  .next (runCmd oDWCV (dataCmd e (computeWork e prodMade)) e s)

/-- POOL (R500). -/
def execPool (e : Eng) (s : State) : Host.Outcome State Fault Refusal :=
  .next (runCmd oPOOL (dataCmd e (computeWork e plainMade)) e s)

/-- RED (R500). -/
def execRed (e : Eng) (s : State) : Host.Outcome State Fault Refusal :=
  .next (runCmd oRED (dataCmd e (computeWork e plainMade)) e s)

/-- VOP (R501). -/
def execVop (e : Eng) (s : State) : Host.Outcome State Fault Refusal :=
  .next (runCmd oVOP (dataCmd e (computeWork e plainMade)) e s)

/-- ACT (R502). -/
def execAct (e : Eng) (s : State) : Host.Outcome State Fault Refusal :=
  .next (runCmd oACT (dataCmd e (computeWork e plainMade)) e s)

/-- QSCAN (R503, 13 R533). -/
def execQscan (e : Eng) (s : State) : Host.Outcome State Fault Refusal :=
  .next (runCmd oQSCAN (dataCmd e (computeWork e plainMade)) e s)

/-- QPACK (R503, 13 R534 to R538, R549 to R553). -/
def execQpack (e : Eng) (s : State) : Host.Outcome State Fault Refusal :=
  .next (runCmd oQPACK (dataCmd e (computeWork e packMade)) e s)

/-- QUNPK (R503, 13 R539 to R541). -/
def execQunpk (e : Eng) (s : State) : Host.Outcome State Fault Refusal :=
  .next (runCmd oQUNPK (dataCmd e (computeWork e plainMade)) e s)

/-- RSCL (R504, 13 R545 to R548). -/
def execRscl (e : Eng) (s : State) : Host.Outcome State Fault Refusal :=
  .next (runCmd oRSCL (dataCmd e (computeWork e plainMade)) e s)

end Sys2Proof.Machine
end

