-- ==== Sys2Proof/Machine/Control.lean ====
section
/-! DEFINITION. The control commands of a lane, waits and their timeouts, completion, the watchdog (12 R477 to R483, R506, R507, R510 to
R513; 11 R440 to R445), and cycle counts (R508). -/

namespace Sys2Proof.Machine

open Sys2Proof

/-! ### NOP, MARK, FENCE, COMMIT -/

/-- NOP (R506): its common checks and nothing else. -/
def execNop (e : Eng) (s : State) : Host.Outcome State Fault Refusal := .next (runCmd oNOP (fun _ s => executed s e) e s)

/-- What MARK does: an event, or on the SCE its mark registers (R507, 10 R385). -/
def markWork (e : Eng) (x : Start) (s : State) : State :=
  let dt := BitVec.ofNat 32 (dtNow s)
  let s := stamped s
  executed (match e with
    | .sce => updSce s (fun c => { c with mark0 := x.c.p0, mark1 := x.c.p1, mark2 := dt, marks := c.marks + 1 })
    | _ => addEvent s true (.mark x.c.p0 x.c.p1 x.en.job dt)) e

/-- MARK (R507). -/
def execMark (e : Eng) (s : State) : Host.Outcome State Fault Refusal := .next (runCmd oMARK (markWork e) e s)

/-- SCE_MARK (10 R385): MARK on the SCE. -/
def execSceMark (s : State) : Host.Outcome State Fault Refusal := .next (runCmd oMARK (markWork .sce) .sce s)

/-- FENCE (R507): the lane waits for its acknowledgements, which COMMAND_COMPLETE brings. -/
def execFence (e : Eng) (s : State) : Host.Outcome State Fault Refusal :=
  .next (runCmd oFENCE (fun _ s => setLane s e (fun l => { l with stage := .fenced })) e s)

/-- The lane has ended, and what it wrote is visible to every lane; when every lane of the job has, the job is DONE (R482, 14 R580). While
I26 is held in reset the lane waits (14 R594), as it does for room for its completion event (11 R464). -/
def commitWork (e : Eng) (x : Start) (s : State) : State :=
  if !islRuns s 26 || eventWaits s e x.l then s else
  let s := flushLane (completionEvent s e x.l) e
  let s := updEng s e (fun g => { g with cur := none, cmds := g.cmds + 1 })
  let s := updEntry s x.l.entry (fun n => { n with doneLanes := n.doneLanes ++ [x.l.index] })
  let n := entrySt s x.l.entry
  let all := (List.range (entryImg s n).lanes.length).all (fun k => n.doneLanes.contains k)
  nextLane (if all then updEntry s x.l.entry (fun n => { n with st := .done }) else s) e

/-- COMMIT (R482). -/
def execCommit (e : Eng) (s : State) : Host.Outcome State Fault Refusal := .next (runCmd oCOMMIT (commitWork e) e s)

/-! ### SWAIT and SSIG (11 R440 to R445) -/

/-- (value − T) mod 2^32 < 2^31 (R442). -/
def reached (v t : Word) : Bool := !(v - t).msb

/-- SWAIT (R442): satisfied at once, or the lane waits. -/
def swaitWork (e : Eng) (x : Start) (s : State) : State :=
  let n := bits x.c.p0 9 0
  if !islRuns s 25 then s
  else if reached (scSt s n).val x.c.p1 then completeCmd s e
  else setLane s e (fun l => { l with stage := .waitSc n x.c.p1 })

/-- SWAIT (R442). -/
def execSwait (e : Eng) (s : State) : Host.Outcome State Fault Refusal := .next (runCmd oSWAIT (swaitWork e) e s)

/-- The stage of an engine's lane. -/
def stageOf (s : State) (e : Eng) : Option Stage := (engSt s e).cur.map Lane.stage

/-- SWAIT_COMPLETE (R442): the counter's value satisfies the wait. -/
def execSwaitComplete (e : Eng) (s : State) : Host.Outcome State Fault Refusal :=
  match stageOf s e with
  | some (.waitSc n t) =>
    if engineReady s e && islRuns s 25 && reached (scSt s n).val t then .next (completeCmd (instant s) e) else .next s
  | _ => .next s

/-- A wait-timeout count advances (R445): no producer is stalled on a full STALL SINK queue, PLL0 is locked (DEDUCED, log 71). -/
def waitCounts (s : State) : Bool := !sinkStalled s && !s.clk.relock0

/-- SC_TIMEOUT (R443): 2^TMO us of counted waiting have passed; a wait satisfied in the same cycle completes (R472). -/
def execScTimeout (e : Eng) (s : State) : Host.Outcome State Fault Refusal :=
  match stageOf s e with
  | some (.waitSc n t) =>
    if !engineReady s e || !islRuns s 25 || !waitCounts s then .next s
    else if reached (scSt s n).val t then .next (completeCmd (instant s) e)
    else
      let s := instant s
      .next (engFault { s with scTmo := satInc 0xFFFF s.scTmo } e cScTimeout 0 none false)
  | _ => .next s

/-- The addition of SSIG (R440): at once to a JOB counter, deferred to the commit for a PLAIN one. -/
def ssigAdd (s : State) (i : Nat) (c : Cmd) : State :=
  let n := bits c.p0 9 0
  let k := bits c.p1 15 0
  if (scSt s n).job then setSc s n { scSt s n with val := (scSt s n).val + BitVec.ofNat 32 k }
  else updEntry s i (fun en => { en with defer := put 0 en.defer n (look en.defer n 0 + k) })

/-- What SSIG does: the work of a FENCE, then its addition (12 R507). With no write to be acknowledged the addition is made at once; else
COMMAND_COMPLETE brings the acknowledgements, and the addition follows them. -/
def ssigWork (e : Eng) (x : Start) (s : State) : State :=
  if !islRuns s 25 then s
  else if x.l.wbuf.isEmpty then executed (ssigAdd s x.l.entry x.c) e
  else setLane s e (fun l => { l with stage := .fenced })

/-- SSIG (R440). -/
def execSsig (e : Eng) (s : State) : Host.Outcome State Fault Refusal := .next (runCmd oSSIG (ssigWork e) e s)

/-! ### TWAIT (R510 to R513) -/

/-- The tile whose link a queue is charged to. -/
def linkTile (d : QDesc) : Option Tile := if d.tlink = 1 then some .t0 else if d.tlink = 2 then some .t1 else none

/-- The queue belongs to a tile that has been declared failed (17 R669). -/
def queueFailed (s : State) (q : Nat) : Bool :=
  match linkTile (qd s q) with
  | some t => (tileSt s t).failed
  | none => false

/-- A satisfied TWAIT completes and sets the lane's coverage. -/
def twaitDone (s : State) (e : Eng) (q items : Nat) : State :=
  completeCmd (setLane s e (fun l => { l with cov := put 0 l.cov q items })) e

/-- TWAIT (R510): satisfied at once, or the lane waits; a queue of a failed tile faults at once. -/
def twaitWork (e : Eng) (x : Start) (s : State) : State :=
  match Ref.of x.c.a with
  | .queue q0 =>
    (match portQueue x.en q0 with
     | none => s
     | some q =>
       if queueFailed s q then failCmd s e x.l 0x15 0 (some q)
       else if x.c.d0 ≤ (qd s q).vis then twaitDone s e q x.c.d0
       else setLane s e (fun l => { l with stage := .waitTile (BitVec.ofNat 14 q) x.c.d0 (bits x.c.p1 4 0) }))
  | _ => s

/-- TWAIT (R510). -/
def execTwait (e : Eng) (s : State) : Host.Outcome State Fault Refusal := .next (runCmd oTWAIT (twaitWork e) e s)

/-- TWAIT_COMPLETE (R510): the items have become visible. -/
def execTwaitComplete (e : Eng) (s : State) : Host.Outcome State Fault Refusal :=
  match stageOf s e with
  | some (.waitTile q items _) =>
    if engineReady s e && islRuns s 24 && decide (items ≤ (qd s q.toNat).vis) then .next (twaitDone (instant s) e q.toNat items)
    else .next s
  | _ => .next s

/-- TWAIT_TIMEOUT (R513): 2^TMO us of counted waiting have passed. -/
def execTwaitTimeout (e : Eng) (s : State) : Host.Outcome State Fault Refusal :=
  match stageOf s e with
  | some (.waitTile q items _) =>
    if !engineReady s e || !islRuns s 24 || !waitCounts s then .next s
    else if items ≤ (qd s q.toNat).vis then .next (twaitDone (instant s) e q.toNat items)
    else .next (engFault (instant s) e cTwaitTimeout 0 (some q.toNat) false)
  | _ => .next s

/-! ### Stalls (11 R433, R434) -/

/-- The lane's whole reservation is granted, when the space is there on every queue. -/
def grantOut (s : State) (e : Eng) (req : List (Nat × Nat)) : State :=
  if allGrantable s req then stallEnded (holdSpace s e req) else s

/-- RESERVATION_GRANT (R434). -/
def execReservationGrant (e : Eng) (s : State) : Host.Outcome State Fault Refusal :=
  match stageOf s e with
  | some (.stallOut req) => if engineReady s e && islRuns s 24 then .next (grantOut s e req) else .next s
  | _ => .next s

/-- QUEUE_STALL_END (R433): items, or space, have appeared. -/
def execQueueStallEnd (e : Eng) (s : State) : Host.Outcome State Fault Refusal :=
  if !engineReady s e || !islRuns s 24 then .next s
  else match stageOf s e with
    | some (.stallIn q) =>
      if (qd s q.toNat).vis = 0 then .next s else .next (setLane s e (fun l => { l with stage := .ready }))
    | some (.stallOut req) => .next (grantOut s e req)
    | _ => .next s

/-! ### Completion, watchdog, SCE fault -/

/-- A write of the lane that awaits its acknowledgement goes to memory that cannot be reached now. -/
def fenceWaits (s : State) (e : Eng) : Bool :=
  match (engSt s e).cur with
  | some l => l.wbuf.any (fun w => rangeWaits s w.1 w.2.length)
  | none => false

/-- The acknowledgements are there: the lane's writes are visible to every lane (R479), a SSIG makes its addition, the command
completes. -/
def fenceDone (s : State) (e : Eng) : State :=
  match (engSt s e).cur with
  | none => s
  | some l =>
    let c := cmdAt s (l.base + l.off)
    let t := flushLane s e
    if c.opc = oSSIG then (if islRuns s 25 then completeCmd (ssigAdd t l.entry c) e else s) else completeCmd t e

/-- COMMAND_COMPLETE (R477): an executed command, a FENCE or SSIG whose writes are acknowledged (R507), or the end of the transfer that an
abandoned command was making (R485). -/
def execCommandComplete (e : Eng) (s : State) : Host.Outcome State Fault Refusal :=
  if !engineReady s e then .next s
  else match stageOf s e with
    | some .executed => .next (completeCmd (instant s) e)
    | some .fenced => if fenceWaits s e then .next s else .next (fenceDone (instant s) e)
    | some .abandon => .next (freeAbandoned s e)
    | _ => .next s

/-- WATCHDOG (R483): the command has executed for 2^24 cycles; stalls, waits and relocks do not count (R446) (DEDUCED, log 71). -/
def execWatchdog (e : Eng) (s : State) : Host.Outcome State Fault Refusal :=
  match (engSt s e).cur with
  | none => .next s
  | some l =>
    if engineReady s e && (l.stage == .ready || l.stage == .executed || l.stage == .fenced) then
      .next (failCmd (instant s) e l cWatchdog.toNat 0 none)
    else .next s

/-- SCE_FAULT (10 R384): the SCE's present command fails a check, or holds an uncorrectable error. -/
def execSceFault (s : State) : Host.Outcome State Fault Refusal :=
  if !engineReady s .sce then .next s
  else match startOf s .sce with
    | none => .next s
    | some x =>
      let s := instant s
      if fetchEcc s x.l then .next (failCmd s .sce x.l 0x10 0 none)
      else match illegal s .sce x.l x.en x.c with
        | some i => .next (failCmd s .sce x.l i.code i.cas i.q)
        | none => if operandEcc s .sce x.os then .next (failCmd s .sce x.l 0x10 0 none) else .next s

/-! ### Cycle counts (R508) -/

/-- MAC steps per 32 output channels: K_c by the widest operand. -/
def macsPerCycle (fa fb : Nat) : Nat :=
  let f := max (fBits fa) (fBits fb)
  if fInt fa then (if f = 4 then 128 else if f = 8 then 64 else 16) else if f = 8 then 32 else 16

/-- C_ARITH and T_FIX of a command. Group-quantised CONV takes its largest number of escape applications. -/
def arithCycles (s : State) (en : Entry) (c : Cmd) (q : QP) : Nat × Nat :=
  let g := Geo.of c.p0
  let kc := macsPerCycle c.fa c.fb
  let n2 := cdiv (c.d0 * c.d1) 32
  let steps := fun (k : Nat) => if q.g ≠ 0 ∧ 6 ≤ c.fo then max (cdiv k kc) (k / q.g) else cdiv k kc
  let esc := fun (rows k n : Nat) => if q.g ≠ 0 ∧ 6 ≤ c.fo then rows * (k / q.g) * q.e * cdiv n 32 else 0
  let hw := g.ho c.d0 * g.wo c.d1
  if c.opc = oMMA then (c.d0 * cdiv c.d1 32 * steps c.d2 + esc c.d0 c.d2 c.d1, 48)
  else if c.opc = oCONV then
    let k := g.kh * g.kw * c.d2
    (hw * cdiv c.d3 32 * steps k + esc hw k c.d3, 48)
  else if c.opc = oDWCV then (hw * cdiv c.d2 32 * cdiv (g.kh * g.kw) kc, 48)
  else if c.opc = oPOOL then (hw * cdiv c.d2 32 * (g.kh * g.kw), 16)
  else if c.opc = oACT then (if fInt c.fa then n2 else 2 * n2, 16)
  else if c.opc = oQPACK then (n2 + c.d1 * cdiv c.d0 (rowGroup c q), 16)
  else if c.opc = oRED ∨ c.opc = oVOP ∨ c.opc = oQSCAN ∨ c.opc = oQUNPK ∨ c.opc = oRSCL then (n2, 16)
  else if c.opc = oMOV then (c.d1 * (cdiv c.d0 64 + 1), 24)
  else if c.opc = oGATH ∨ c.opc = oSCAT then (c.d1 * (cdiv c.d0 64 + 2), 24)
  else if c.opc = oENQ then (c.d0 * cdiv (itemOf s en (Ref.of c.o)) 64, 24)
  else if c.opc = oDEQ then (c.d0 * cdiv (itemOf s en (Ref.of c.a)) 64, 24)
  else if c.opc = oFENCE ∨ c.opc = oSSIG then (96, 4)
  else (0, 4)

/-- Bytes of a command's operands that a test on the reference accepts. -/
def bytesIn (os : List Opd) (p : Ref → Bool) : Nat := ((os.filter (fun o => p o.ref)).map Opd.qbytes).foldl (· + ·) 0

/-- C of R508, with f_PLL0 in MHz for L_CLAY. -/
def execCycles (s : State) (e : Eng) (en : Entry) (c : Cmd) (mhz : Nat) : Nat :=
  let q := (qpOf s e (freshLane 0 0 0 0) en c).getD .absent
  let os := opdsOf s en c q
  let a := arithCycles s en c q
  let tsr := bytesIn os (fun r =>
    match r with
    | .mem x => decide (x < 0x10800000)
    | .queue _ => true
    | _ => false)
  let ls := bytesIn os (fun r =>
    match r with
    | .mem x => decide (0x18000000 ≤ x) && decide (x < 0x18100000)
    | _ => false)
  let clay := bytesIn os (fun r =>
    match r with
    | .mem x => isClay x
    | _ => false)
  match e with
  | .dm0 => a.2 + max a.1 (cdiv (clay * mhz) 25600)
  | .dm1 => a.2 + max a.1 (cdiv (clay * mhz) 25600)
  | _ => a.2 + max a.1 (max (cdiv tsr 64) (cdiv ls 256))

end Sys2Proof.Machine
end

