-- ==== Sys2Proof/Machine/Crypto.lean ====
section
/-! DEFINITION. What the crypto engines of I58 compute (15 R597, R598): SHA-256, ECDSA over P-256, AES-256-GCM, as their standards define
them (the manual names FIPS 180-4, FIPS 186-4, FIPS 197 and SP 800-38D only by their algorithms; PRESUMED, log 33). -/

namespace Sys2Proof.Machine

open Sys2Proof

/-! ### SHA-256 -/

/-- Round constants. -/
def shaK : List Word :=
  [0x428a2f98, 0x71374491, 0xb5c0fbcf, 0xe9b5dba5, 0x3956c25b, 0x59f111f1, 0x923f82a4, 0xab1c5ed5] ++
  [0xd807aa98, 0x12835b01, 0x243185be, 0x550c7dc3, 0x72be5d74, 0x80deb1fe, 0x9bdc06a7, 0xc19bf174] ++
  [0xe49b69c1, 0xefbe4786, 0x0fc19dc6, 0x240ca1cc, 0x2de92c6f, 0x4a7484aa, 0x5cb0a9dc, 0x76f988da] ++
  [0x983e5152, 0xa831c66d, 0xb00327c8, 0xbf597fc7, 0xc6e00bf3, 0xd5a79147, 0x06ca6351, 0x14292967] ++
  [0x27b70a85, 0x2e1b2138, 0x4d2c6dfc, 0x53380d13, 0x650a7354, 0x766a0abb, 0x81c2c92e, 0x92722c85] ++
  [0xa2bfe8a1, 0xa81a664b, 0xc24b8b70, 0xc76c51a3, 0xd192e819, 0xd6990624, 0xf40e3585, 0x106aa070] ++
  [0x19a4c116, 0x1e376c08, 0x2748774c, 0x34b0bcb5, 0x391c0cb3, 0x4ed8aa4a, 0x5b9cca4f, 0x682e6ff3] ++
  [0x748f82ee, 0x78a5636f, 0x84c87814, 0x8cc70208, 0x90befffa, 0xa4506ceb, 0xbef9a3f7, 0xc67178f2]

/-- The eight working words. -/
structure Sha where
  a : Word
  b : Word
  c : Word
  d : Word
  e : Word
  f : Word
  g : Word
  h : Word
  deriving DecidableEq, Repr

def Sha.init : Sha := ⟨0x6a09e667, 0xbb67ae85, 0x3c6ef372, 0xa54ff53a, 0x510e527f, 0x9b05688c, 0x1f83d9ab, 0x5be0cd19⟩

/-- The message schedule of a block: 16 words extended to 64. -/
def shaExtend (w : Array Word) : Array Word :=
  (List.range 48).foldl (fun w i =>
    let x := w.getD (i + 1) 0
    let y := w.getD (i + 14) 0
    let s0 := x.rotateRight 7 ^^^ x.rotateRight 18 ^^^ (x >>> 3)
    let s1 := y.rotateRight 17 ^^^ y.rotateRight 19 ^^^ (y >>> 10)
    w.push (w.getD i 0 + s0 + w.getD (i + 9) 0 + s1)) w

/-- One round. -/
def Sha.round (s : Sha) (kw : Word) : Sha :=
  let s1 := s.e.rotateRight 6 ^^^ s.e.rotateRight 11 ^^^ s.e.rotateRight 25
  let ch := (s.e &&& s.f) ^^^ (~~~s.e &&& s.g)
  let t1 := s.h + s1 + ch + kw
  let s0 := s.a.rotateRight 2 ^^^ s.a.rotateRight 13 ^^^ s.a.rotateRight 22
  let maj := (s.a &&& s.b) ^^^ (s.a &&& s.c) ^^^ (s.b &&& s.c)
  ⟨t1 + s0 + maj, s.a, s.b, s.c, s.d + t1, s.e, s.f, s.g⟩

/-- One block of 64 bytes. -/
def Sha.block (s : Sha) (bs : List Byte) : Sha :=
  let w0 := ((List.range 16).map (fun i => BitVec.ofNat 32 (fromBe ((bs.drop (4 * i)).take 4)))).toArray
  let w := (shaExtend w0).toList
  let t := (List.zipWith (· + ·) shaK w).foldl Sha.round s
  ⟨s.a + t.a, s.b + t.b, s.c + t.c, s.d + t.d, s.e + t.e, s.f + t.f, s.g + t.g, s.h + t.h⟩

/-- Blocks of 64 bytes in order. -/
def shaBlocks (s : Sha) : Nat → List Byte → Sha
  | 0, _ => s
  | n + 1, bs => shaBlocks (s.block (bs.take 64)) n (bs.drop 64)

/-- The big-endian bytes of a number. -/
def beNat (n v : Nat) : List Byte := (leBytes n v).reverse

/-- SHA-256 of a byte sequence. -/
def sha256 (bs : List Byte) : BitVec 256 :=
  let n := bs.length
  let pad := (119 - n % 64) % 64
  let m := bs ++ 0x80 :: (List.replicate pad 0 ++ beNat 8 (8 * n))
  let s := shaBlocks Sha.init (m.length / 64) m
  s.a ++ s.b ++ s.c ++ s.d ++ s.e ++ s.f ++ s.g ++ s.h

/-! ### P-256 -/

def ecP : Nat := 0xFFFFFFFF00000001000000000000000000000000FFFFFFFFFFFFFFFFFFFFFFFF
def ecN : Nat := 0xFFFFFFFF00000000FFFFFFFFFFFFFFFFBCE6FAADA7179E84F3B9CAC2FC632551
def ecB : Nat := 0x5AC635D8AA3A93E7B3EBBD55769886BC651D06B0CC53B0F63BCE3C3E27D2604B
def ecG : Nat × Nat :=
  (0x6B17D1F2E12C4247F8BCE6E563A440F277037D812DEB33A0F4A13945D898C296,
   0x4FE342E2FE1A7F9B8EE7EB4A7C0F9E162BCE33576B315ECECBB6406837BF51F5)

/-- x^e mod m by the bits of e, k of them. -/
def powMod (m x e : Nat) : Nat → Nat
  | 0 => 1 % m
  | k + 1 =>
    let r := powMod m x (e / 2) k
    if e % 2 = 1 then r * r % m * x % m else r * r % m

/-- The inverse modulo a prime below 2^256. -/
def invMod (m x : Nat) : Nat := powMod m x (m - 2) 256

/-- A difference modulo m. -/
def subMod (m a b : Nat) : Nat := (a + m - b % m) % m

/-- A point of the curve, none at infinity. -/
abbrev EcPt := Option (Nat × Nat)

/-- The chord or tangent of slope l through (x1, y1) and a point of abscissa x2. -/
def ecChord (l x1 y1 x2 : Nat) : EcPt :=
  let x := subMod ecP (l * l) (x1 + x2)
  some (x, subMod ecP (l * subMod ecP x1 x) y1)

/-- Addition of points. -/
def ecAdd (a b : EcPt) : EcPt :=
  match a, b with
  | none, q => q
  | q, none => q
  | some (x1, y1), some (x2, y2) =>
    if x1 = x2 then
      (if (y1 + y2) % ecP = 0 then none
       else ecChord ((3 * x1 * x1 + ecP - 3) * invMod ecP (2 * y1 % ecP) % ecP) x1 y1 x2)
    else ecChord (subMod ecP y2 y1 * invMod ecP (subMod ecP x2 x1) % ecP) x1 y1 x2

/-- k times a point, by the bits of k, n of them. -/
def ecMul (q : EcPt) (k : Nat) : Nat → EcPt
  | 0 => none
  | n + 1 =>
    let h := ecMul q (k / 2) n
    let d := ecAdd h h
    if k % 2 = 1 then ecAdd d q else d

/-- The point lies on the curve. -/
def ecOn (x y : Nat) : Bool := decide (x < ecP) && decide (y < ecP) && y * y % ecP == (x * x % ecP * x + (ecP - 3) * x + ecB) % ecP

/-- ECDSA verification of a digest (15 R597). -/
def ecdsaOk (x y : Nat) (digest : BitVec 256) (r s : Nat) : Bool :=
  if r = 0 ∨ ecN ≤ r ∨ s = 0 ∨ ecN ≤ s ∨ !ecOn x y then false
  else
    let w := invMod ecN s
    match ecAdd (ecMul (some ecG) (digest.toNat * w % ecN) 256) (ecMul (some (x, y)) (r * w % ecN) 256) with
    | none => false
    | some (u, _) => u % ecN == r

/-! ### AES-256 -/

/-- Multiplication by x in GF(2^8). -/
def xtime (b : Nat) : Nat := if b < 128 then 2 * b else (2 * b) % 256 ^^^ 0x1B

/-- Multiplication in GF(2^8) by the bits of the second factor, n of them. -/
def gfMul (a b : Nat) : Nat → Nat
  | 0 => 0
  | n + 1 => (if b % 2 = 1 then a else 0) ^^^ gfMul (xtime a) (b / 2) n

/-- The power x^254, the inverse in GF(2^8). -/
def gfInv (x : Nat) : Nat :=
  let m := fun (a b : Nat) => gfMul a b 8
  let x2 := m x x
  let x4 := m x2 x2
  let x8 := m x4 x4
  let x16 := m x8 x8
  let x32 := m x16 x16
  let x64 := m x32 x32
  let x128 := m x64 x64
  m x2 (m x4 (m x8 (m x16 (m x32 (m x64 x128)))))

/-- Rotation of a byte to the left. -/
def rotl8 (b n : Nat) : Nat := (b * 2 ^ n) % 256 + b / 2 ^ (8 - n)

/-- The S-box. -/
def aesSub (b : Nat) : Nat :=
  let i := gfInv b
  i ^^^ rotl8 i 1 ^^^ rotl8 i 2 ^^^ rotl8 i 3 ^^^ rotl8 i 4 ^^^ 0x63

/-- The S-box as a table. -/
def aesTable : Array Nat := ((List.range 256).map aesSub).toArray

def aesS (b : Nat) : Nat := aesTable.getD b 0

/-- The next four bytes of the key schedule, from the word eight back and the last word. -/
def keyWord (i : Nat) (back last : List Nat) : List Nat :=
  let t :=
    if i % 8 = 0 then
      (match last.drop 1 ++ last.take 1 with
       | a :: r => (aesS a ^^^ gfMul 1 (2 ^ (i / 8 - 1)) 8) :: r.map aesS
       | [] => [])
    else if i % 8 = 4 then last.map aesS
    else last
  List.zipWith (· ^^^ ·) back t

/-- The 60 words of the key schedule. -/
def keySchedule (key : List Nat) : Array (List Nat) :=
  let w0 := ((List.range 8).map (fun i => (key.drop (4 * i)).take 4)).toArray
  (List.range 52).foldl (fun w j => w.push (keyWord (j + 8) (w.getD j []) (w.getD (j + 7) []))) w0

/-- Key of a round. -/
def roundKey (w : Array (List Nat)) (r : Nat) : List Nat := ((List.range 4).map (fun i => w.getD (4 * r + i) [])).flatten

/-- Rows shifted: byte 4c + r comes from column c + r. -/
def shiftRows (s : List Nat) : List Nat := (List.range 16).map (fun i => s.getD ((i / 4 + i % 4) % 4 * 4 + i % 4) 0)

/-- One column mixed. -/
def mixColumn (a b c d : Nat) : List Nat :=
  [xtime a ^^^ xtime b ^^^ b ^^^ c ^^^ d, a ^^^ xtime b ^^^ xtime c ^^^ c ^^^ d, a ^^^ b ^^^ xtime c ^^^ xtime d ^^^ d,
   xtime a ^^^ a ^^^ b ^^^ c ^^^ xtime d]

/-- Columns mixed. -/
def mixColumns (s : List Nat) : List Nat :=
  ((List.range 4).map (fun c => mixColumn (s.getD (4 * c) 0) (s.getD (4 * c + 1) 0) (s.getD (4 * c + 2) 0) (s.getD (4 * c + 3) 0))).flatten

/-- XOR of byte rows. -/
def xorBytes (a b : List Nat) : List Nat := List.zipWith (· ^^^ ·) a b

/-- AES-256 of a 16-byte block under a key schedule. -/
def aesBlock (w : Array (List Nat)) (x : List Nat) : List Nat :=
  let s := xorBytes x (roundKey w 0)
  let s := (List.range 13).foldl (fun s r => xorBytes (mixColumns (shiftRows (s.map aesS))) (roundKey w (r + 1))) s
  xorBytes (shiftRows (s.map aesS)) (roundKey w 14)

/-! ### GCM -/

/-- The number of big-endian bytes. -/
def beNum (bs : List Nat) : Nat := bs.foldl (fun a b => 256 * a + b) 0

/-- A number as n big-endian bytes. -/
def beList (n v : Nat) : List Nat := (beNat n v).map BitVec.toNat

/-- Multiplication in GF(2^128) with the bit order of GCM: the bits of x from the most significant, n left to go. -/
def ghMul (x v z : Nat) : Nat → Nat
  | 0 => z
  | n + 1 =>
    ghMul x (if v % 2 = 1 then v / 2 ^^^ (0xE1 * 2 ^ 120) else v / 2) (if (x / 2 ^ n) % 2 = 1 then z ^^^ v else z) n

/-- Bytes in blocks of 16, the last padded with zeros, as numbers. -/
def gcmBlocks (bs : List Nat) : List Nat :=
  (List.range (cdiv bs.length 16)).map (fun i =>
    let b := (bs.drop (16 * i)).take 16
    beNum (b ++ List.replicate (16 - b.length) 0))

/-- GHASH of additional data and ciphertext. -/
def ghash (h : Nat) (aad ct : List Nat) : Nat :=
  (gcmBlocks aad ++ gcmBlocks ct ++ [8 * aad.length * 2 ^ 64 + 8 * ct.length]).foldl (fun y b => ghMul (y ^^^ b) h 0 128) 0

/-- The counter block n of a 96-bit vector. -/
def gcmCounter (iv : List Nat) (n : Nat) : List Nat := iv ++ beList 4 n

/-- The tag of additional data and ciphertext. -/
def gcmTag (key iv aad ct : List Nat) : List Nat :=
  let w := keySchedule key
  let h := beNum (aesBlock w (List.replicate 16 0))
  xorBytes (beList 16 (ghash h aad ct)) (aesBlock w (gcmCounter iv 1))

/-- Decryption, which is encryption, of a byte row. -/
def gcmCrypt (key iv ct : List Nat) : List Nat :=
  let w := keySchedule key
  ((List.range (cdiv ct.length 16)).map (fun i =>
    xorBytes ((ct.drop (16 * i)).take 16) (aesBlock w (gcmCounter iv (i + 2))))).flatten

end Sys2Proof.Machine
end

