-- ==== Sys2Proof/Machine/Loader.lean ====
section
/-! DEFINITION. The loader (chapter 15): capsules and images, the install checks with their fault codes and cases, placement,
relocation and folding, model slots, swap and unload, and the capsule registers. -/

namespace Sys2Proof.Machine

open Sys2Proof

/-! ### Checks -/

/-- A check's outcome: the first fault, or a value. -/
abbrev Chk := Except LoadFault

/-- A condition that must hold. -/
def need (ok : Bool) (code cas : Byte) (off : Nat) (q : Option Nat := none) : Chk Unit :=
  if ok then .ok () else .error { code, cas, offset := off, qid := q }

/-- Every item must meet a condition; the first that does not is the fault. -/
def needAll {α : Type} (l : List α) (ok : α → Bool) (code cas : Byte) (off : α → Nat) (q : α → Option Nat := fun _ => none) : Chk Unit :=
  match l.find? (fun x => !ok x) with
  | some x => .error { code, cas, offset := off x, qid := q x }
  | none => .ok ()

/-- A check of L3 or L4: its fault is one of I58 (R616). -/
def at58 {α : Type} (c : Chk α) : Chk α := c.mapError (fun f => { f with isl := 58 })

/-- Load-fault codes (R616). -/
def cCapFormat : Byte := 0x30
def cCapSignature : Byte := 0x31
def cCapRollback : Byte := 0x32
def cCapDecrypt : Byte := 0x33
def cImgFormat : Byte := 0x34
def cImgNeed : Byte := 0x35
def cImgPlace : Byte := 0x36
def cImgQueue : Byte := 0x37
def cImgGraph : Byte := 0x38
def cImgReloc : Byte := 0x39
def cImgLane : Byte := 0x3A
def cImgFold : Byte := 0x3B
def cImgSilt : Byte := 0x3C
def cRefused : Byte := 0x3D
def cFuse : Byte := 0x3E
def cAbort : Byte := 0x3F

/-- A little-endian number of n bytes at an offset. -/
def leAt (bs : List Byte) (off n : Nat) : Nat := fromLe ((bs.drop off).take n)

/-- The word at a byte offset. -/
def wordAt (bs : List Byte) (off : Nat) : Word := BitVec.ofNat 32 (leAt bs off 4)

/-- n bytes at an offset are zero. -/
def zeroAt (bs : List Byte) (off n : Nat) : Bool := ((bs.drop off).take n).all (· == 0)

/-- Bytes as numbers. -/
def natBytes (bs : List Byte) : List Nat := bs.map BitVec.toNat

/-! ### The capsule (R595 to R600) -/

structure CapHdr where
  flags : Word
  model : Nat
  skey : Nat
  ekey : Nat
  arb : Nat
  plen : Nat
  build : BitVec 64
  deriving DecidableEq, Repr

def CapHdr.of (h : List Byte) : CapHdr :=
  { flags := wordAt h 8, model := leAt h 0x0C 1, skey := leAt h 0x0D 1, ekey := leAt h 0x0E 1, arb := leAt h 0x0F 1,
    plen := leAt h 0x10 4, build := BitVec.ofNat 64 (leAt h 0x18 8) }

def CapHdr.silt (h : CapHdr) : Bool := bit h.flags 0
def CapHdr.enc (h : CapHdr) : Bool := bit h.flags 1
def CapHdr.signed (h : CapHdr) : Bool := bit h.flags 2
def CapHdr.adv (h : CapHdr) : Bool := bit h.flags 3

/-- L2 (R595, R596). -/
def checkHeader (b : List Byte) (model len : Nat) : Chk Unit := do
  let h := CapHdr.of b
  need (leAt b 0 4 == 0x5043584F) cCapFormat 1 0
  need (leAt b 4 2 == 1) cCapFormat 2 4
  need (leAt b 6 2 == 128) cCapFormat 2 6
  need (h.plen % 64 == 0 && decide (128 ≤ h.plen) && len == 128 + h.plen + 64 * b2n h.signed) cCapFormat 3 0x10
  need (bits h.flags 31 4 == 0) cCapFormat 4 8
  need (decide (h.skey < 4)) cCapFormat 4 0x0D
  need (decide (h.ekey < 4) && (h.enc || h.ekey == 0)) cCapFormat 4 0x0E
  need (decide (h.arb ≤ 64)) cCapFormat 4 0x0F
  need (zeroAt b 0x14 4) cCapFormat 4 0x14
  need (h.enc || zeroAt b 0x20 12) cCapFormat 4 0x20
  need (h.enc || zeroAt b 0x2C 16) cCapFormat 4 0x2C
  need (zeroAt b 0x3C 68) cCapFormat 4 0x3C
  need (h.model == model) cCapFormat 5 0x0C

/-- A key slot that the loader may use. -/
def usableKey (s : State) (ks : List KeySlot) (i : Nat) : Option (BitVec 512) :=
  let k := nth ks i .blank
  if keyValid s k then some k.bits else none

/-- The signature of a capsule (R597, R599). -/
def checkSignature (s : State) (c : List Byte) (h : CapHdr) (digest : BitVec 256) : Chk Unit :=
  if !h.signed then need (life s != .sealed) cCapSignature 1 8
  else match usableKey s s.fuses.sig h.skey with
    | none => .error { code := cCapSignature, cas := 2, offset := 0x0D, qid := none }
    | some k =>
      let sg := natBytes (c.drop (128 + h.plen))
      need (ecdsaOk (k.toNat / 2 ^ 256) (k.toNat % 2 ^ 256) digest (beNum (sg.take 32)) (beNum ((sg.drop 32).take 32)))
        cCapSignature 3 (128 + h.plen)

/-- The key, initialisation vector and ciphertext of an encrypted capsule. -/
def encKey (k : BitVec 512) : List Nat := beList 32 (k.toNat % 2 ^ 256)

def capIv (c : List Byte) : List Nat := natBytes ((c.drop 0x20).take 12)

def capBody (c : List Byte) (h : CapHdr) : List Byte := (c.drop 128).take h.plen

/-- The image in the payload (R598). -/
def imageOf (s : State) (c : List Byte) (h : CapHdr) : List Byte :=
  if h.enc then (gcmCrypt (encKey (nth s.fuses.enc h.ekey .blank).bits) (capIv c) (natBytes (capBody c h))).map (BitVec.ofNat 8)
  else capBody c h

/-- The GCM tag of an encrypted capsule (R598). -/
def checkTag (s : State) (c : List Byte) (h : CapHdr) : Chk Unit :=
  if !h.enc then .ok ()
  else match usableKey s s.fuses.enc h.ekey with
    | none => .error { code := cCapDecrypt, cas := 1, offset := 0x0E, qid := none }
    | some k =>
      need (gcmTag (encKey k) (capIv c) (natBytes (c.take 0x2C)) (natBytes (capBody c h)) == natBytes ((c.drop 0x2C).take 16))
        cCapDecrypt 2 0x2C

/-! ### The image (R601 to R607) -/

structure ImgLaneRec where
  i : Nat
  off : Nat
  cls : Nat
  v : Nat
  ncmd : Nat
  rsvd : Nat
  deriving DecidableEq, Repr

/-- A segment of .const: destination, virtual engine, offset, where its data lies in .const, length. -/
structure Seg where
  dest : Nat
  v : Nat
  off : Nat
  pos : Nat
  len : Nat
  ok : Bool
  deriving DecidableEq, Repr

/-- An image taken apart: header fields, sections with their offsets in the payload, lanes. -/
structure Xim where
  vte : Nat
  nlane : Nat
  nq : Nat
  nsc : Nat
  nin : Nat
  tsrSz : Nat
  lsSz : Nat
  clay0Sz : Nat
  clay1Sz : Nat
  sccSz : Nat
  secs : List (Nat × Nat)
  cmd : List Byte
  const : List Byte
  qtab : List Byte
  reloc : List Byte
  param : List Byte
  lanes : List ImgLaneRec
  segs : List Seg
  deriving DecidableEq, Repr

/-- The lane table. -/
def laneTable (cmd : List Byte) (n : Nat) : List ImgLaneRec :=
  (List.range n).map (fun i =>
    let w1 := wordAt cmd (8 * i + 4)
    { i, off := leAt cmd (8 * i) 4, cls := bits w1 3 0, v := bits w1 5 4, ncmd := bits w1 31 16, rsvd := bits w1 15 6 })

/-- The segments of .const from a position on; a malformed one is marked and ends the list. -/
def segments (bs : List Byte) : Nat → Nat → List Seg
  | 0, _ => []
  | k + 1, pos =>
    if bs.length ≤ pos then []
    else
      let w0 := wordAt bs pos
      let len := leAt bs (pos + 8) 4
      let tot := cdiv (16 + len) 64 * 64
      let dest := bits w0 3 0
      let ok := decide (pos + tot ≤ bs.length) && bits w0 31 6 == 0 && zeroAt bs (pos + 12) 4 && decide (dest ≤ 3) &&
        (dest == 1 || bits w0 5 4 == 0)
      let g : Seg := { dest, v := bits w0 5 4, off := leAt bs (pos + 4) 4, pos := pos + 16, len, ok }
      if ok then g :: segments bs k (pos + tot) else [g]

/-- A section's bytes. -/
def section_ (b : List Byte) (x : Nat × Nat) : List Byte := (b.drop x.1).take x.2

/-- An image taken apart. -/
def Xim.of (b : List Byte) : Xim :=
  let secs := (List.range 5).map (fun k => (leAt b (0x20 + 8 * k) 4, leAt b (0x24 + 8 * k) 4))
  let sec := fun k => section_ b (nth secs k (0, 0))
  { vte := leAt b 4 1, nlane := leAt b 5 1, nq := leAt b 6 2, nsc := leAt b 8 2, nin := leAt b 0x0A 2, tsrSz := leAt b 0x0C 4,
    lsSz := leAt b 0x10 4, clay0Sz := leAt b 0x14 4, clay1Sz := leAt b 0x18 4, sccSz := leAt b 0x1C 4, secs, cmd := sec 0,
    const := sec 1, qtab := sec 2, reloc := sec 3, param := sec 4, lanes := laneTable (sec 0) (leAt b 5 1),
    segs := segments (sec 1) (sec 1).length 0 }

/-- Capsule offset of a section. -/
def Xim.at (x : Xim) (k : Nat) : Nat := 128 + (nth x.secs k (0, 0)).1

/-- Capsule offset of the entry of lane i. -/
def Xim.laneAt (x : Xim) (i : Nat) : Nat := x.at 0 + 8 * i

/-- The sections lie after the header, on 64-byte boundaries, in order, without overlap, within `PLEN`, and .cmd is not empty (R602):
the index of the first that does not. -/
def badSection (len : Nat) : Nat → Nat → List (Nat × Nat) → Option Nat
  | _, _, [] => none
  | k, prev, x :: r =>
    if x.1 % 64 = 0 ∧ prev ≤ x.1 ∧ x.1 + x.2 ≤ len ∧ (k = 0 → x.2 ≠ 0) then badSection len (k + 1) (x.1 + x.2) r
    else some k

/-- Sizes of the destinations of .const. -/
def Xim.destSize (x : Xim) (d : Nat) : Nat := if d = 0 then x.tsrSz else if d = 1 then x.lsSz else if d = 2 then x.clay0Sz else x.clay1Sz

/-- The port records and the candidate list follow the queue and counter records (R605). -/
def Xim.portAt (x : Xim) : Nat := 16 * x.nq + 4 * x.nsc

/-- IMG_FORMAT (R601 to R605). -/
def checkImage (b : List Byte) (x : Xim) (silt : Bool) : Chk Unit := do
  need (leAt b 0 4 == 0x314D4958) cImgFormat 1 128
  match badSection b.length 0 96 x.secs with
  | some k => .error { code := cImgFormat, cas := 2, offset := 128 + 0x20 + 8 * k, qid := none }
  | none => .ok ()
  need (x.qtab.isEmpty && x.nq == 0 && x.nsc == 0 || decide (x.portAt + 32 ≤ x.qtab.length)) cImgFormat 2 (128 + 0x30)
  need (decide (8 * x.nlane ≤ x.cmd.length)) cImgFormat 3 (x.at 0)
  needAll x.lanes (fun l => l.rsvd == 0) cImgFormat 3 (fun l => x.laneAt l.i)
  needAll x.segs (fun g => g.ok && decide (g.off + g.len ≤ x.destSize g.dest) && (g.dest != 1 || decide (g.v < x.vte)) &&
    (!silt || g.dest == 0)) cImgFormat 4 (fun g => x.at 1 + g.pos - 16)
  needAll [(4, decide (x.vte ≤ 4)), (5, decide (1 ≤ x.nlane) && decide (x.nlane ≤ 64)), (6, decide (x.nq ≤ 16368)),
      (8, decide (x.nsc ≤ 1024)), (0x0A, silt || x.nin == 0),
      (0x0C, decide (x.cmd.length ≤ x.tsrSz) && (silt || x.tsrSz % 256 == 0)), (0x10, x.lsSz % 64 == 0),
      (0x14, x.clay0Sz % 64 == 0), (0x18, x.clay1Sz % 64 == 0), (0x1C, x.sccSz % 8 == 0), (0x48, zeroAt b 0x48 24)]
    (fun p => p.2) cImgFormat 5 (fun p => 128 + p.1)

/-! ### Records of .qtab (R605) -/

structure QRec where
  i : Nat
  ext : Bool
  qid : Nat
  d : QDesc
  wpj : Nat
  rsvd : Bool
  /-- `TLINK` names a region that lies in no present tile (R614). -/
  lost : Bool
  deriving DecidableEq, Repr

structure CRec where
  j : Nat
  ext : Bool
  num : Nat
  c : Sc
  rsvd : Bool
  deriving DecidableEq, Repr

/-- Placement registers as numbers. -/
def plTsr (s : State) : Nat := s.cap.plTsr.toNat
def plLs (s : State) : Nat := s.cap.plLs.toNat
def plClay (s : State) (n : Nat) : Nat := if n = 0 then s.cap.plClay0.toNat else s.cap.plClay1.toNat
def plScc (s : State) : Nat := s.cap.plScc.toNat
def qBase (s : State) : Nat := bits s.cap.plIds 29 16
def scBase (s : State) : Nat := bits s.cap.plIds 9 0

/-- The present clay tile that an address lies in. -/
def liveTile (s : State) (a : Nat) : Option Tile :=
  match tileOf a with
  | some t => if tilePresent s t then some t else none
  | none => none

/-- The link of `TLINK` after folding (R614). -/
def foldLink (s : State) (n : Nat) : Option Nat :=
  if n = 1 ∨ n = 2 then (liveTile s (plClay s (n - 1))).map (fun t => tileIx t + 1) else some n

/-- Queue record i. -/
def queueRec (s : State) (x : Xim) (i : Nat) : QRec :=
  let w := fun k => wordAt x.qtab (16 * i + 4 * k)
  let ext := bit (w 0) 31
  let link := bits (w 3) 18 17
  { i, ext, qid := if ext then bits (w 0) 29 16 else qBase s + i,
    d := { base := bits (w 0) 14 0 + (if ext then 0 else (plTsr s - 0x10000000) / 256), ldepth := bits (w 1) 31 28,
           isize := bits (w 1) 27 24, cls := bits (w 1) 23 21, scope := bits (w 1) 20 19, ovf := bit (w 1) 18,
           rank := bits (w 2) 31 30, cth := bits (w 2) 29 26, rbw := bits (w 2) 25 18, tlink := (foldLink s link).getD link,
           wp := 0, pp := 0, rp := 0, fp := 0 },
    wpj := bits (w 3) 16 0,
    rsvd := bit (w 0) 30 || bit (w 0) 15 || (!ext && bits (w 0) 29 16 != 0) || bits (w 1) 17 0 != 0 || bits (w 2) 17 0 != 0 ||
      bits (w 3) 31 19 != 0,
    lost := (foldLink s link).isNone }

def queueRecs (s : State) (x : Xim) : List QRec := (List.range x.nq).map (queueRec s x)

/-- Counter record j. -/
def counterRec (s : State) (x : Xim) (j : Nat) : CRec :=
  let w := wordAt x.qtab (16 * x.nq + 4 * j)
  let ext := bit w 31
  { j, ext, num := if ext then bits w 25 16 else scBase s + j, c := ⟨true, bit w 30, bits w 4 0, 0⟩,
    rsvd := bits w 29 26 != 0 || (!ext && bits w 25 16 != 0) || bits w 15 5 != 0 }

def counterRecs (s : State) (x : Xim) : List CRec := (List.range x.nsc).map (counterRec s x)

/-- Capsule offsets of records. -/
def Xim.qAt (x : Xim) (i : Nat) : Nat := x.at 2 + 16 * i
def Xim.cAt (x : Xim) (j : Nat) : Nat := x.at 2 + 16 * x.nq + 4 * j
def Xim.pAt (x : Xim) (p : Nat) : Nat := x.at 2 + x.portAt + 4 * p

/-- Port record p: the indices of its candidates; none where they lie outside the list. -/
def portCands (x : Xim) (p : Nat) : Option (List Nat) :=
  let w := wordAt x.qtab (x.portAt + 4 * p)
  let n := bits w 31 16
  let first := bits w 15 0
  if x.qtab.isEmpty ∨ n = 0 then some []
  else if x.portAt + 32 + 2 * (first + n) ≤ x.qtab.length then
    some ((List.range n).map (fun k => leAt x.qtab (x.portAt + 32 + 2 * (first + k)) 2))
  else none

/-- The QIDs that port p may be bound to. -/
def portQids (x : Xim) (qs : List QRec) (p : Nat) : List Nat :=
  ((portCands x p).getD []).filterMap (fun i => (qs[i]?).map QRec.qid)

/-! ### Regions (R614) -/

/-- Slices of a tensor engine's local store that the image takes. -/
def slices (s : State) (vte t : Nat) : Nat := ((List.range vte).filter (fun v => v % nTe s == t)).length

/-- Offset of the slice of virtual engine V: S(V) of R606. -/
def sliceAt (s : State) (ls : Nat × Nat) (v : Nat) : Nat := ls.1 + v / nTe s * ls.2

/-- An image's regions: whether in the scale cache, first byte, end, header field. -/
def imgRegions (s : State) (i : Img) : List (Bool × Nat × Nat × Nat) :=
  let plain := fun (r : Nat × Nat) (f : Nat) => if r.2 = 0 then [] else [(false, r.1, r.1 + r.2, f)]
  plain i.tsr 0x0C ++
    (List.range (nTe s)).flatMap (fun t => plain (0x18000000 + t * 0x40000 + i.ls.1, slices s i.vte t * i.ls.2) 0x10) ++
    plain i.clay0 0x14 ++ plain i.clay1 0x18 ++ (if i.scc.2 = 0 then [] else [(true, i.scc.1, i.scc.1 + i.scc.2, 0x1C)])

/-- Two regions overlap. -/
def overlap (a b : Bool × Nat × Nat × Nat) : Bool := a.1 == b.1 && decide (a.2.1 < b.2.2.1) && decide (b.2.1 < a.2.2.1)

/-- The images of the READY slots. -/
def readyImgs (s : State) : List Img := (s.cap.slots.filter (fun x => x.st == .ready)).map Slot.img

/-- An address lies in a region of a READY or LOADING slot (16 R648). -/
def slotRegion (s : State) (a : Nat) : Bool :=
  let imgs := readyImgs s ++ (match s.cap.inst with
    | some i => if i.silt then [] else [i.img]
    | none => [])
  imgs.any (fun i => (imgRegions s i).any (fun r => !r.1 && decide (r.2.1 ≤ a) && decide (a < r.2.2.1)))

/-- The regions that the placement registers give an image. -/
def placed (s : State) (x : Xim) : Img :=
  { Img.empty with vte := x.vte, tsr := (plTsr s, x.tsrSz), ls := (plLs s, x.lsSz), clay0 := (plClay s 0, x.clay0Sz),
                   clay1 := (plClay s 1, x.clay1Sz), scc := (plScc s, x.sccSz) }

/-- IMG_NEED. -/
def checkNeeds (s : State) (x : Xim) : Chk Unit := do
  need (x.clay0Sz == 0 && x.clay1Sz == 0 || nClay s != 0) cImgNeed 1 (128 + 0x14)
  needAll [0, 1] (fun n =>
    let sz := if n = 0 then x.clay0Sz else x.clay1Sz
    let a := plClay s n
    sz == 0 || ((liveTile s a).isSome && tileOf (a + sz - 1) == tileOf a)) cImgNeed 2 (fun n => 128 + 0x14 + 4 * n)
  need (decide (plLs s + cdiv x.vte (nTe s) * x.lsSz ≤ 0x40000)) cImgNeed 3 (128 + 0x10)
  need (decide (x.sccSz ≤ 0x10000)) cImgNeed 4 (128 + 0x1C)

/-- The storage of a queue: first byte and end. -/
def QDesc.storage (d : QDesc) : Nat × Nat := (0x10000000 + d.base * 256, 0x10000000 + d.base * 256 + d.depth * d.item)

def meetRange (a b : Nat × Nat) : Bool := decide (a.1 < b.2) && decide (b.1 < a.2)

/-- A QID that the image may not take: beyond Q16367, named twice, or used by what does not share it (R418, R610). -/
def qidTaken (s : State) (qs : List QRec) (r : QRec) : Bool :=
  decide (16368 ≤ r.qid) || qs.any (fun o => o.i != r.i && o.qid == r.qid) ||
    ((qd s r.qid).cls != clsUnused && !(r.ext && (readyImgs s).any (fun i => i.extQ.contains r.qid)))

def counterTaken (s : State) (cs : List CRec) (r : CRec) : Bool :=
  cs.any (fun o => o.j != r.j && o.num == r.num) ||
    ((scSt s r.num).valid && !(r.ext && (readyImgs s).any (fun i => i.extC.contains r.num)))

/-- Queue storage outside TSR, outside the image's TSR region when it is the image's own, or over another queue's
(R416, R417, R605). -/
def storageBad (s : State) (x : Xim) (qs : List QRec) (r : QRec) : Bool :=
  let a := r.d.storage
  decide (0x10800000 < a.2) || (!r.ext && !(decide (plTsr s ≤ a.1) && decide (a.2 ≤ plTsr s + x.tsrSz))) ||
    qs.any (fun o => decide (o.i < r.i) && meetRange a o.d.storage) ||
    s.qm.qdt.any (fun o => o.1 != 16383 && o.1 != r.qid && meetRange a o.2.storage)

/-- IMG_PLACE. The slot being installed is LOADING, so that a region may not overlap another of its own image either (case 2). -/
def checkPlace (s : State) (x : Xim) (qs : List QRec) (cs : List CRec) : Chk Unit := do
  let mine := imgRegions s (placed s x)
  let others := (readyImgs s).flatMap (imgRegions s)
  need (decide (0x10000000 ≤ plTsr s) && decide (plTsr s + x.tsrSz ≤ 0x10800000)) cImgPlace 1 (128 + 0x0C)
  need (decide (plScc s + x.sccSz ≤ 0x10000)) cImgPlace 1 (128 + 0x1C)
  needAll mine.zipIdx (fun r => !others.any (overlap r.1) && !(mine.take r.2).any (overlap r.1)) cImgPlace 2
    (fun r => 128 + r.1.2.2.2)
  let stage := (false, s.cap.addr.toNat, s.cap.addr.toNat + s.cap.len.toNat, 0)
  needAll mine (fun r => !overlap r stage) cImgPlace 3 (fun r => 128 + r.2.2.2)
  need (decide (qBase s + x.nq ≤ 16368)) cImgPlace 4 (128 + 6)
  need (decide (scBase s + x.nsc ≤ 1024)) cImgPlace 4 (128 + 8)
  needAll qs (fun r => !qidTaken s qs r) cImgPlace 4 (fun r => x.qAt r.i) (fun r => some r.qid)
  needAll cs (fun r => !counterTaken s cs r) cImgPlace 4 (fun r => x.cAt r.j)
  needAll qs (fun r => !storageBad s x qs r) cImgPlace 5 (fun r => x.qAt r.i) (fun r => some r.qid)

/-! ### Queues, counters, ports (R429, R438, R444, R454, R455, R605, R610) -/

/-- A reserved encoding of a queue record. -/
def recReserved (r : QRec) : Bool :=
  r.rsvd || decide (8 < r.d.isize) || decide (5 < r.d.cls) || r.d.scope == 3 || r.d.tlink == 3

/-- The class rules of R429, and R430. -/
def classOk (d : QDesc) : Bool :=
  let cth := d.cth == 0 || (d.cls == clsData && d.scope == scJob)
  cth &&
    (if d.cls = clsCmd then d.scope == scPlain && d.isize == 2 && !d.ovf
     else if d.cls = clsSrc then d.scope == scTxn && !d.ovf
     else if d.cls = clsData then (d.scope == scTxn || d.scope == scJob) && !d.ovf
     else if d.cls = clsSink then d.scope == scTxn
     else false)

/-- R454 and R455. -/
def linkOk (r : QRec) : Bool :=
  let a := r.d.storage
  (r.d.rbw == 0 || (a.1 - 0x10000000) / 0x200000 == (a.2 - 1 - 0x10000000) / 0x200000) &&
    (r.d.tlink == 0 || (r.d.rbw != 0 && r.d.cls == clsData)) && !r.lost

/-- An EXT record agrees with the descriptor that stands (R610). -/
def extQOk (s : State) (r : QRec) : Bool :=
  let d := qd s r.qid
  !r.ext || d.cls == clsUnused || { d with wp := 0, pp := 0, rp := 0, fp := 0 } == r.d

def extCOk (s : State) (r : CRec) : Bool :=
  let c := scSt s r.num
  !r.ext || !c.valid || (c.job == r.c.job && c.tmo == r.c.tmo)

/-- A port's candidates: input ports bind SRC and DATA queues, output ports DATA and SINK queues. -/
def portOk (x : Xim) (qs : List QRec) (p : Nat) : Bool :=
  match portCands x p with
  | none => false
  | some is =>
    is.all (fun i =>
      match qs[i]? with
      | some r => r.d.cls == clsData || r.d.cls == (if p < 4 then clsSrc else clsSink)
      | none => false)

/-- The eight ports. -/
def portNums : List Nat := List.range 8

/-! ### Relocation and parameters (R606, R607) -/

/-- .cmd and .const as they are being patched. -/
structure Bodies where
  cmd : List Byte
  const : List Byte
  deriving DecidableEq, Repr

/-- Field [lsb + wid - 1 : lsb] of the word at t replaced. -/
def patchField (bs : List Byte) (t lsb wid v : Nat) : List Byte :=
  bs.take t ++ leBytes 4 (setBits (wordAt bs t) (lsb + wid - 1) lsb v).toNat ++ bs.drop (t + 4)

/-- The section that a target names. -/
def Bodies.sec (b : Bodies) (k : Nat) : Option (List Byte) := if k = 0 then some b.cmd else if k = 1 then some b.const else none

def Bodies.set (b : Bodies) (k : Nat) (bs : List Byte) : Bodies := if k = 0 then { b with cmd := bs } else { b with const := bs }

/-- The target word of an entry's word 0: section bytes and offset. -/
def targetOf (b : Bodies) (w0 : Word) : Option (List Byte × Nat) :=
  let t := bits w0 27 0
  match b.sec (bits w0 31 28) with
  | some bs => if t % 4 = 0 ∧ t + 4 ≤ bs.length then some (bs, t) else none
  | none => none

/-- A .param entry applied. -/
def paramStep (s : State) (x : Xim) (b : Bodies) (e : List Byte × Nat) : Chk Bodies := do
  let at_ := x.at 4 + 16 * e.2
  let w0 := wordAt e.1 0
  let w1 := wordAt e.1 4
  let key := bits w1 11 10
  let lsb := bits w1 4 0
  let wid := bits w1 9 5 + 1
  let v := leAt e.1 (8 + 2 * (if key = 0 then nTe s - 1 else nClay s)) 2
  match targetOf b w0 with
  | none => .error { code := cImgReloc, cas := 1, offset := at_, qid := none }
  | some (bs, t) =>
    need (decide (key ≤ 1) && bits w1 31 12 == 0) cImgReloc 2 at_
    need (decide (lsb + wid ≤ 32) && decide (v < 2 ^ wid)) cImgReloc 3 at_
    .ok (b.set (bits w0 31 28) (patchField bs t lsb wid v))

/-- What a .reloc entry makes of a field's value; none: a record index beyond the table. -/
def relocValue (s : State) (x : Xim) (qs : List QRec) (cs : List CRec) (kind v f : Nat) : Option Int :=
  let add := fun (d : Int) => some ((f : Int) + d)
  let sl : Nat := sliceAt s (plLs s, x.lsSz) v
  if kind = 1 then add ((plTsr s : Int) - 0x10000000)
  else if kind = 2 then add sl
  else if kind = 3 then add ((v % nTe s * 0x40000 + sl : Nat) : Int)
  else if kind = 4 then add ((plClay s 0 : Int) - 0x80000000)
  else if kind = 5 then add ((plClay s 1 : Int) - 0x80000000)
  else if kind = 6 then (qs[f]?).map (fun r => (r.qid : Int))
  else if kind = 7 then (cs[f]?).map (fun r => (r.num : Int))
  else add (plScc s)

/-- A .reloc entry applied. -/
def relocStep (s : State) (x : Xim) (qs : List QRec) (cs : List CRec) (b : Bodies) (e : List Byte × Nat) : Chk Bodies := do
  let at_ := x.at 3 + 8 * e.2
  let w0 := wordAt e.1 0
  let w1 := wordAt e.1 4
  let kind := bits w1 3 0
  let lsb := bits w1 10 6
  let wid := bits w1 15 11 + 1
  match targetOf b w0 with
  | none => .error { code := cImgReloc, cas := 1, offset := at_, qid := none }
  | some (bs, t) =>
    need (decide (1 ≤ kind) && decide (kind ≤ 8) && bits w1 31 16 == 0) cImgReloc 2 at_
    need (decide (lsb + wid ≤ 32)) cImgReloc 3 at_
    match relocValue s x qs cs kind (bits w1 5 4) (bits (wordAt bs t) (lsb + wid - 1) lsb) with
    | none => .error { code := cImgReloc, cas := 4, offset := at_, qid := none }
    | some n =>
      need (decide (0 ≤ n) && decide (n < ((2 ^ wid : Nat) : Int))) cImgReloc 3 at_
      .ok (b.set (bits w0 31 28) (patchField bs t lsb wid n.toNat))

/-- The entries of a section, numbered. -/
def entriesOf (n : Nat) (bs : List Byte) : List (List Byte × Nat) := (cutItems n (bs.length / n) bs).zipIdx

/-- .cmd and .const with .param and then .reloc applied (R612 L6). -/
def patched (s : State) (x : Xim) (qs : List QRec) (cs : List CRec) : Chk Bodies := do
  let b ← (entriesOf 16 x.param).foldlM (paramStep s x) ⟨x.cmd, x.const⟩
  (entriesOf 8 x.reloc).foldlM (relocStep s x qs cs) b

/-- The same with the entries that fail passed over: what the lane and graph checks read, since they come first. -/
def patchedAnyway (s : State) (x : Xim) (qs : List QRec) (cs : List CRec) : Bodies :=
  let go := fun (f : Bodies → List Byte × Nat → Chk Bodies) (b : Bodies) (e : List Byte × Nat) =>
    match f b e with
    | .ok c => c
    | .error _ => b
  (entriesOf 8 x.reloc).foldl (go (relocStep s x qs cs)) ((entriesOf 16 x.param).foldl (go (paramStep s x)) ⟨x.cmd, x.const⟩)

/-! ### Lanes and the queue graph (R466, R603, R609, R614, R615) -/

/-- What a command does with queues and counters, and its offset in .cmd. QIDs are those of the command, ports not resolved. -/
structure Use where
  lane : Nat
  off : Nat
  reads : List Nat
  writes : List Nat
  wait : Bool
  sig : List Nat
  swait : List Nat
  deriving DecidableEq, Repr

/-- The queue that a reference word names. -/
def refQ (used : Bool) (w : Word) : List Nat :=
  match Ref.of w with
  | .queue q => if used then [q] else []
  | _ => []

/-- The use of one command: every operand reference of its words may name a queue (R492), its QP block and RSCL's table too. -/
def useOf (lane off : Nat) (c : Cmd) : Use :=
  let u := usesOf c
  let n := bits c.p0 9 0
  { lane, off,
    reads := refQ u.a c.a ++ refQ u.b c.b ++ refQ (hasQp c) (qpRef c) ++ refQ (c.opc == oRSCL && c.mode % 2 == 1) c.p1,
    writes := refQ u.o c.o, wait := c.opc == oTWAIT,
    sig := if c.opc = oSSIG then [n] else [], swait := if c.opc = oSWAIT then [n] else [] }

/-- The commands of a lane. -/
def laneCmds (cmd : List Byte) (l : ImgLaneRec) : List Cmd :=
  (cutItems 32 l.ncmd (cmd.drop l.off)).map (fun bs => Cmd.ofWords ((chunks 4 32 bs).map (BitVec.ofNat 32)))

/-- The lane lies in .cmd after the lane table, on a 32-byte boundary. -/
def laneInside (x : Xim) (l : ImgLaneRec) : Bool :=
  l.off % 32 == 0 && decide (8 * x.nlane ≤ l.off) && decide (l.off + 32 * l.ncmd ≤ x.cmd.length)

/-- The uses of every lane that lies in .cmd. -/
def usesIn (x : Xim) (cmd : List Byte) : List Use :=
  (x.lanes.filter (laneInside x)).flatMap (fun l => (laneCmds cmd l).zipIdx.map (fun c => useOf l.i (l.off + 32 * c.2) c.1))

/-- A QID of a command as the queues it may stand for: a port stands for each of its candidates. -/
def resolve (x : Xim) (qs : List QRec) (q : Nat) : List Nat :=
  if 16368 ≤ q ∧ q < 16376 then portQids x qs (q - 16368) else [q]

/-- The lane's class and virtual engine are valid in a Loam image. -/
def laneClassOk (x : Xim) (l : ImgLaneRec) : Bool :=
  if l.cls = 0 then decide (l.v < x.vte) else if l.cls = 1 then l.v == 0 else if l.cls = 2 then decide (l.v ≤ 1) else false

/-- The lane ends in its only COMMIT. -/
def laneEnds (cmd : List Byte) (l : ImgLaneRec) : Bool :=
  let cs := (laneCmds cmd l).map Cmd.opc
  cs.getLast? == some oCOMMIT && (cs.filter (· == oCOMMIT)).length == 1

/-- The engine of a lane after folding (R614). -/
def laneEng (s : State) (l : ImgLaneRec) : Eng :=
  if l.cls = 0 then teOf (l.v % nTe s) else if l.cls = 1 then .su else if l.v = 0 then .dm0 else .dm1

/-- The scope of a queue as its record, or the descriptor that stands, gives it. -/
def scopeOf (s : State) (qs : List QRec) (q : Nat) : Nat :=
  match qs.find? (fun r => r.qid == q) with
  | some r => r.d.scope
  | none => if (qd s q).cls = clsUnused then 3 else (qd s q).scope

/-- Lanes that write a queue and lanes that read it. -/
def writers (x : Xim) (qs : List QRec) (us : List Use) (q : Nat) : List Nat :=
  (us.filter (fun u => u.writes.any (fun w => (resolve x qs w).contains q))).map Use.lane

def readers (x : Xim) (qs : List QRec) (us : List Use) (q : Nat) : List Nat :=
  (us.filter (fun u => u.reads.any (fun w => (resolve x qs w).contains q))).map Use.lane

/-- Every writer comes before every other reader (R609). -/
def inOrder (ws rs : List Nat) : Bool := ws.all (fun w => rs.all (fun r => decide (w ≤ r)))

/-- Queues named by a list of uses. -/
def useQueues (x : Xim) (qs : List QRec) (us : List Use) : List Nat :=
  (us.flatMap (fun u => (u.reads ++ u.writes).flatMap (resolve x qs))).eraseDups

def useCounters (us : List Use) : List Nat := (us.flatMap (fun u => u.sig ++ u.swait)).eraseDups

/-- The classes of R429 as the image's commands use a queue: jobs write DATA and SINK queues and read SRC and DATA queues. -/
def useClassOk (x : Xim) (qs : List QRec) (us : List Use) (r : QRec) : Bool :=
  ((writers x qs us r.qid).isEmpty || r.d.cls == clsData || r.d.cls == clsSink) &&
    ((readers x qs us r.qid).isEmpty || r.d.cls == clsData || r.d.cls == clsSrc)

/-- IMG_QUEUE. -/
def checkQueues (s : State) (x : Xim) (qs : List QRec) (cs : List CRec) (us : List Use) : Chk Unit := do
  let qAll := fun (ok : QRec → Bool) (k : Byte) => needAll qs ok cImgQueue k (fun r => x.qAt r.i) (fun r => some r.qid)
  let cAll := fun (ok : CRec → Bool) (k : Byte) => needAll cs ok cImgQueue k (fun r => x.cAt r.j)
  qAll (fun r => !recReserved r) 1
  cAll (fun r => !r.rsvd) 1
  qAll (fun r => classOk r.d && useClassOk x qs us r) 2
  qAll (fun r => r.d.cth == 0 || decide (r.d.cth * 64 < r.d.item)) 3
  qAll linkOk 4
  cAll (fun r => decide (4 ≤ r.c.tmo) && decide (r.c.tmo ≤ 23)) 5
  qAll (extQOk s) 6
  cAll (extCOk s) 6
  needAll portNums (portOk x qs) cImgQueue 7 x.pAt

/-- IMG_LANE. -/
def checkLanes (s : State) (x : Xim) (qs : List QRec) (cmd : List Byte) (us : List Use) : Chk Unit := do
  let inside := x.lanes.filter (laneInside x)
  needAll x.lanes (laneClassOk x) cImgLane 1 (fun l => x.laneAt l.i)
  needAll inside (laneEnds cmd) cImgLane 2 (fun l => x.at 0 + l.off)
  needAll (useQueues x qs us) (fun q => scopeOf s qs q != scJob || inOrder (writers x qs us q) (readers x qs us q)) cImgLane 3
    (fun q => x.laneAt ((readers x qs us q).min?.getD 0))
  needAll (useCounters us) (fun n =>
      inOrder ((us.filter (fun u => u.sig.contains n)).map Use.lane) ((us.filter (fun u => u.swait.contains n)).map Use.lane))
    cImgLane 3 (fun n => x.laneAt (((us.filter (fun u => u.swait.contains n)).map Use.lane).min?.getD 0))
  needAll x.lanes (laneInside x) cImgLane 4 (fun l => x.laneAt l.i)

/-- The edges of the queue graph that commands make: from each queue that one reads to each that it writes (R466). -/
def useEdges (x : Xim) (qs : List QRec) (us : List Use) : List (Nat × Nat) :=
  ((us.filter (fun u => !u.wait)).flatMap (fun u =>
    (u.reads.flatMap (resolve x qs)).flatMap (fun r => (u.writes.flatMap (resolve x qs)).map (fun w => (r, w))))).eraseDups

/-- Edges whose end has an edge onward: what is left in the end lies on, or leads to, a cycle. -/
def trimEdges : Nat → List (Nat × Nat) → List (Nat × Nat)
  | 0, es => es
  | k + 1, es => trimEdges k (es.filter (fun e => es.any (fun f => f.1 == e.2)))

/-- The edges that lie on a cycle or between two. -/
def cyclic (es : List (Nat × Nat)) : List (Nat × Nat) :=
  let turn := fun (l : List (Nat × Nat)) => l.map (fun e => (e.2, e.1))
  turn (trimEdges es.length (turn (trimEdges es.length es)))

/-- The queues that commands read. -/
def readQueues (x : Xim) (qs : List QRec) (us : List Use) : List Nat :=
  ((us.filter (fun u => !u.wait)).flatMap (fun u => u.reads.flatMap (resolve x qs))).eraseDups

/-- A path of the graph ends in queue q, which is no SINK: nothing reads q, or a command feeds it from a queue and none passes it on to
a queue (DEDUCED, log 74). -/
def deadEnd (es : List (Nat × Nat)) (rs : List Nat) (q : Nat) : Bool :=
  !rs.contains q || (es.any (fun e => e.2 == q) && !es.any (fun e => e.1 == q))

/-- Where a fault of queue q is reported: at its record, or at the first command that names it (R616). -/
def queueAt (x : Xim) (qs : List QRec) (us : List Use) (q : Nat) : Nat :=
  match qs.find? (fun r => r.qid == q) with
  | some r => x.qAt r.i
  | none => x.at 0 + ((us.find? (fun u => ((u.reads ++ u.writes).flatMap (resolve x qs)).contains q)).map Use.off).getD 0

/-- The QID of a record of the image. -/
def recordOf (qs : List QRec) (q : Nat) : Option Nat := (qs.find? (fun r => r.qid == q)).map QRec.qid

/-- IMG_GRAPH, over this image and every READY one (R614). -/
def checkGraph (s : State) (x : Xim) (qs : List QRec) (us : List Use) : Chk Unit := do
  let es := useEdges x qs us ++ (readyImgs s).flatMap Img.edges
  let rs := readQueues x qs us ++ (readyImgs s).flatMap Img.reads
  let ns := useQueues x qs us ++ (readyImgs s).flatMap Img.nodes
  let cls := fun q => match qs.find? (fun r => r.qid == q) with
    | some r => r.d.cls
    | none => (qd s q).cls
  let loop := cyclic es
  need loop.isEmpty cImgGraph 1
    (x.at 0 + ((us.find? (fun u => (useEdges x qs [u]).any (fun e => loop.contains e))).map Use.off).getD 0)
  needAll ns (fun q => cls q == clsSink || !deadEnd es rs q) cImgGraph 2 (queueAt x qs us) (recordOf qs)
  needAll (useQueues x qs us) (fun q =>
      scopeOf s qs q != scTxn || (writers x qs us q).isEmpty || (readers x qs us q).isEmpty) cImgGraph 3 (queueAt x qs us)
    (recordOf qs)

/-- IMG_FOLD (R615). -/
def checkFold (s : State) (x : Xim) (qs : List QRec) (us : List Use) : Chk Unit :=
  let engOf := fun i => (x.lanes[i]?).map (laneEng s)
  needAll qs (fun r =>
    r.d.scope != scJob || decide (r.wpj ≤ r.d.depth) ||
      !(writers x qs us r.qid).any (fun w => (readers x qs us r.qid).any (fun k => w != k && engOf w == engOf k)))
    cImgFold 1 (fun r => x.qAt r.i) (fun r => some r.qid)

/-! ### Silt images (R625, R626) -/

/-- Elements and multiply-accumulates of a command: its term of N_W. -/
def sceWork (c : Cmd) : Nat :=
  let g := Geo.of c.p0
  let win := g.ho c.d0 * g.wo c.d1 * g.kh * g.kw
  if c.opc = oMMA then c.d0 * c.d1 * c.d2
  else if c.opc = oCONV then win * c.d3 * c.d2
  else if c.opc = oDWCV ∨ c.opc = oPOOL then win * c.d2
  else c.d0 * c.d1

/-- What an install writes: the image's record, bytes to write after its regions are zeroed, and of a silt image the
address of its first command, their number, and `SCE_TINF`. -/
structure Plan where
  img : Img
  writes : List (Nat × List Byte)
  silt : Option (Nat × Nat × Nat)
  deriving DecidableEq, Repr

/-- The bytes of a segment. -/
def segBytes (const : List Byte) (g : Seg) : List Byte := (const.drop g.pos).take g.len

/-- The state as it is once a plan's bytes are written: regions zeroed, then .cmd and the segments. -/
def writePlan (s : State) (p : Plan) : State :=
  let s := (imgRegions s p.img).foldl (fun t r =>
    if r.1 then sccZero t r.2.1 r.2.2.1 else zeroBytes t r.2.1 (r.2.2.1 - r.2.1)) s
  p.writes.foldl (fun t w => writeBytes t w.1 w.2) s

/-- IMG_SILT, and the plan of a silt image. -/
def siltPlan (s : State) (x : Xim) : Chk Plan := do
  need (decide (x.tsrSz ≤ 0x7D000)) cImgSilt 1 (128 + 0x0C)
  let l := nth x.lanes 0 ⟨0, 0, 0, 0, 0, 0⟩
  need (x.nlane == 1 && l.cls == 3 && l.v == 0 && x.nq == 0 && x.nsc == 0 && x.vte == 0 && x.reloc.isEmpty && x.param.isEmpty)
    cImgSilt 2 (128 + 4)
  need (laneInside x l) cImgLane 4 (x.laneAt 0)
  let plan : Plan :=
    { img := { Img.empty with tsr := (sceModel, x.tsrSz) },
      writes := (sceModel, x.cmd) :: x.segs.map (fun g => (sceModel + g.off, segBytes x.const g)), silt := none }
  let t := writePlan s plan
  let cs := ((List.range l.ncmd).map (fun k => (cmdAt t (sceModel + l.off + 32 * k), k)))
  let lane := freshLane 0 0 (sceModel + l.off) l.ncmd
  needAll cs (fun c => (illegal t .sce lane .free c.1).isNone) cImgSilt 3 (fun c => x.at 0 + l.off + 32 * c.2)
  let c := (cs.getLast?.map Prod.fst).getD (Cmd.ofWords [])
  let out := opdRole (opdsOf t .free c ((qpOf t .sce lane .free c).getD .absent)) .o
  need (!cs.isEmpty && c.fo == fU8 && (match out with
    | some o => o.ref == .mem sceResult && o.span == 64
    | none => false)) cImgSilt 4 (x.at 0 + l.off + 32 * (l.ncmd - 1))
  need (decide (1 ≤ x.nin) && decide (x.nin ≤ 2048)) cImgSilt 5 (128 + 0x0A)
  let nw := (cs.map (fun c => sceWork c.1)).foldl (· + ·) 0
  .ok { plan with silt := some (sceModel + l.off, l.ncmd, cdiv nw 64 + 16 * l.ncmd + 48 + 2 * x.nin) }

/-! ### Loam images -/

/-- The address that a segment of .const goes to (R604, R614). -/
def segAddr (s : State) (x : Xim) (g : Seg) : Nat :=
  g.off + (if g.dest = 0 then plTsr s
    else if g.dest = 1 then 0x18000000 + g.v % nTe s * 0x40000 + sliceAt s (plLs s, x.lsSz) g.v
    else plClay s (g.dest - 2))

/-- The checks of a Loam image and its plan (R612 L5). -/
def loamPlan (s : State) (x : Xim) : Chk Plan := do
  let qs := queueRecs s x
  let cs := counterRecs s x
  checkNeeds s x
  checkPlace s x qs cs
  let cmd := (patchedAnyway s x qs cs).cmd
  let us := usesIn x cmd
  checkQueues s x qs cs us
  checkLanes s x qs cmd us
  checkGraph s x qs us
  checkFold s x qs us
  let b ← patched s x qs cs
  let ports := portNums.map (portQids x qs)
  let img : Img :=
    { placed s x with
      lanes := x.lanes.map (fun l => ⟨laneEng s l, l.off, l.ncmd⟩), queues := qs.map (fun r => (r.qid, r.d)),
      counters := cs.map (fun r => (r.num, r.c)), ports := ports, produces := (us.flatMap Use.writes).eraseDups,
      consumes := (us.flatMap Use.reads).eraseDups, sems := useCounters us, extQ := (qs.filter QRec.ext).map QRec.qid,
      extC := (cs.filter CRec.ext).map CRec.num, edges := useEdges x qs us, reads := readQueues x qs us,
      nodes := useQueues x qs us }
  .ok { img, writes := (plTsr s, b.cmd) :: x.segs.map (fun g => (segAddr s x g, segBytes b.const g)), silt := none }

/-! ### Installing (R611 to R616) -/

/-- The staged capsule. -/
def staged (s : State) : List Byte := readBytes s s.cap.addr.toNat s.cap.len.toNat

/-- The staging lies wholly inside TSR, the sediment deposit area or a present clay tile (R612 L1). -/
def stagingOk (s : State) : Bool :=
  let a := s.cap.addr.toNat
  let e := a + Nat.max s.cap.len.toNat 128
  let inside := fun lo hi => decide (lo ≤ a) && decide (e ≤ hi)
  inside 0x10000000 0x10800000 || inside 0x200C0000 0x20200000 || (inside 0x80000000 0xA0000000 && tilePresent s .t0) ||
    (inside 0xA0000000 0xC0000000 && tilePresent s .t1)

/-- An uncorrectable error in the first n bytes of the staged capsule. -/
def stagedEcc (s : State) (n : Nat) : Chk Unit := need (!eccHit s s.cap.addr.toNat n) cAbort 3 0

/-- The digest of pass 1 (R597). -/
def stagedDigest (c : List Byte) : BitVec 256 := sha256 (c.take (128 + (CapHdr.of c).plen))

/-- Steps L2 to L5: the first fault, or what L6 and L7 write (DEDUCED, log 74). -/
def installPlan (s : State) (model : Nat) : Chk Plan := do
  stagedEcc s 128
  checkHeader (readBytes s s.cap.addr.toNat 128) model s.cap.len.toNat
  at58 (stagedEcc s s.cap.len.toNat)
  let c := staged s
  let h := CapHdr.of c
  at58 (checkSignature s c h (stagedDigest c))
  at58 (checkTag s c h)
  at58 (need (decide (rollbackCount s ≤ h.arb)) cCapRollback 1 0x0F)
  let b := imageOf s c h
  let x := Xim.of b
  checkImage b x h.silt
  if h.silt then siltPlan s x else loamPlan s x

/-- An uncommitted job has recorded the slot (R571). -/
def slotRecorded (s : State) (m : Nat) (b : Bool) : Bool :=
  entryNums.any (fun i =>
    let e := entrySt s i
    e.st != .free && e.st != .rejected && e.model == m && e.slotB == b)

/-- A slot's state as it reads: a slot with a region on a failed tile is EMPTY once no uncommitted job has recorded it (17 R671). -/
def slotView (s : State) (m : Nat) (b : Bool) : SlotState :=
  let x := slotSt s m b
  if slotOnFailed s x.img && x.st == .ready && !slotRecorded s m b then .empty else x.st

/-- A slot is emptied as by UNLOAD: queues and counters that no other READY image names become unused (R622, R623). -/
def dropSlot (s : State) (m : Nat) (b : Bool) : State :=
  let img := (slotSt s m b).img
  let s := updSlot s m b (fun _ => .empty)
  let s := if nth s.cap.active m none == some b then updCap s (fun c => { c with active := upd c.active m (fun _ => none) }) else s
  let rest := readyImgs s
  let s := (img.queues.filter (fun q => !rest.any (fun i => i.queues.any (fun r => r.1 == q.1)))).foldl (fun t q => dropQueue t q.1) s
  (img.counters.filter (fun n => !rest.any (fun i => i.counters.any (fun r => r.1 == n.1)))).foldl (fun t n => setSc t n.1 .unused) s

/-- The step L1 to L7 at which the install under way stands (DESIGN CHOICE, log 34). -/
def installPhase (s : State) : Nat := if s.cap.inst.isSome then 1 + Config.installStep s.tim.dt % 7 else 0

/-- A load fault's record (R616); a refusal writes none. -/
def loadRec (s : State) (f : LoadFault) : State :=
  let s := instant s
  storeRec s { plainRec s f.code f.cas f.isl 8 with offset := BitVec.ofNat 32 f.offset, qv := f.qid.isSome, qid := BitVec.ofNat 14 (f.qid.getD 0) }

/-- The result of an install in `CAP_STATUS`, with the interrupt source. -/
def installResult (s : State) (res : Nat) (code cas : Byte) : State :=
  raiseInt (updCap s (fun c => { c with inst := none, iresult := res, icode := code, icase := cas })) intCapsule

/-- The image's regions zeroed (R613). -/
def wipeRegions (s : State) (i : Img) : State := writePlan s { img := i, writes := [], silt := none }

/-- The install ends in a fault or an abort: its slot is EMPTY (R612, R613). `written` says that L6 has begun. -/
def failInstall (s : State) (i : Inst) (f : LoadFault) (written : Bool) : State :=
  let s := if written then wipeRegions s i.img else s
  let s := if i.silt then s else updSlot s i.model i.slotB (fun _ => .empty)
  installResult (loadRec s f) (if f.code = cAbort then 4 else 2) f.code f.cas

/-- A refusal at L1: reported in `CAP_STATUS` only. -/
def refuseInstall (s : State) (cas : Byte) : State := installResult s 3 cRefused cas

/-- The capsule to be installed is a silt image, as its staged header says. -/
def stagedSilt (s : State) : Bool := stagingOk s && (readByte s (s.cap.addr.toNat + 8)).getLsbD 0

/-- L1: the first refusal (R612, R387). During a life-cycle transition every install is refused with case 2 (16 R655). -/
def installRefusal (s : State) (m : Nat) (b : Bool) : Option Byte :=
  if inTransition s then some 2
  else if stagedSilt s then (if s.sce.run then some 3 else none)
  else if nth s.cap.active m none == some b || s.cap.swap == some (m, b) then some 1
  else if slotRecorded s m b then some 2
  else if (slotSt s m b).st == .loading then some 3
  else if !stagingOk s then some 4
  else none

/-- The install begins: an inactive READY slot is unloaded, the slot is LOADING, and the checks are made (L1 to L5). -/
def beginInstall (s : State) (m : Nat) (b : Bool) : State :=
  let silt := stagedSilt s
  let s := if silt then updSce s (fun c => { c with loaded := false }) else updSlot (dropSlot s m b) m b (fun x => { x with st := .loading })
  let r := installPlan s m
  let i : Inst :=
    { model := m, slotB := b, silt, digest := stagedDigest (staged s),
      fault := (match r with
        | .error f => some f
        | .ok _ => none),
      img := (match r with
        | .error _ => .empty
        | .ok p => p.img) }
  updCap s (fun c => { c with inst := some i })

/-- A `CAP_CTRL` write with OP = INSTALL. -/
def installAct (m : Nat) (b : Bool) : RegAct := fun s =>
  if s.cap.inst.isSome then (s, stBusy)
  else match installRefusal s m b with
    | some k => (refuseInstall s k, stOk)
    | none => (beginInstall s m b, stOk)

/-- The firmware and the crypto engines run. -/
def loaderRuns (s : State) : Bool := pdOn s 5 && pdOn s 19 && islRuns s 21 && islRuns s 58

/-- L7: descriptors of new queues with all pointers 0, configurations of new counters, the slot READY; of a silt image the
records of R625 and R626. -/
def finishPlan (s : State) (i : Inst) (p : Plan) (h : CapHdr) : State :=
  match p.silt with
  | some (base, n, tinf) =>
    updSce s (fun c => { c with loaded := true, model := i.model, slot := i.slotB, tinf, cbase := base, ncmd := n, marks := 0 })
  | none =>
    let s := p.img.queues.foldl (fun t q => if (qd t q.1).cls = clsUnused then storeQd t q.1 q.2 else t) s
    let s := p.img.counters.foldl (fun t c => if (scSt t c.1).valid then t else setSc t c.1 c.2) s
    updSlot s i.model i.slotB (fun _ => { st := .ready, arb := h.arb, adv := h.adv, build := h.build, img := p.img })

/-- INSTALL_COMPLETE (R612, R613): pass 2 hashes the capsule again; the slot is READY, or a fault leaves it EMPTY. -/
def execInstallComplete (s : State) : Host.Outcome State Fault Refusal :=
  match s.cap.inst with
  | none => .next s
  | some i =>
    if !loaderRuns s then .next s
    else match i.fault with
      | some f => .next (failInstall s i f false)
      | none =>
        if eccHit s s.cap.addr.toNat s.cap.len.toNat then .next (failInstall s i { code := cAbort, cas := 3, offset := 0, qid := none } true)
        else if stagedDigest (staged s) ≠ i.digest then .next (failInstall s i { code := cCapSignature, cas := 4, offset := 0, qid := none } true)
        else
          let c := staged s
          let h := CapHdr.of c
          let x := Xim.of (imageOf s c h)
          match (if i.silt then siltPlan s x else loamPlan s x) with
          | .error f => .next (failInstall s i f true)
          | .ok p => .next (installResult (finishPlan (writePlan s p) i p h) 1 0 0)

/-- The install under way is aborted (R628, R629): case 1 by a write, case 2 by an island reset. What L6 had written is zeroed
(DEDUCED, log 74). -/
def abortInstall (s : State) (cas : Byte) : State :=
  match s.cap.inst with
  | none => s
  | some i =>
    let p := installPhase s
    failInstall s i { code := cAbort, cas, offset := 0, qid := none, isl := if p = 3 ∨ p = 4 then 58 else 21 }
      (i.fault.isNone && decide (6 ≤ p))

/-- An install that writes the tile ends with IMG_NEED case 2, at the header field of the region lost; what L6 has written is zeroed
(R684, 15 R613). -/
def installLost (s : State) (t : Tile) : State :=
  match s.cap.inst with
  | none => s
  | some i =>
    let on := fun (r : Nat × Nat) => r.2 != 0 && tileOf r.1 == some t
    if (on i.img.clay0 || on i.img.clay1) && i.fault.isNone then
      let s := if 6 ≤ installPhase s then wipeRegions s i.img else s
      updCap s (fun c => { c with inst := some { i with
        fault := some { code := cImgNeed, cas := 2, offset := 128 + (if on i.img.clay0 then 0x14 else 0x18), qid := none } } })
    else s

/-! ### Swap and unload (R619 to R623) -/

/-- The result of a swap or unload. -/
def swapResult (s : State) (res cas : Nat) : State := updCap s (fun c => { c with swap := none, sresult := res, scase := cas })

/-- The named slot becomes active. -/
def activate (s : State) (m : Nat) (b : Bool) : State :=
  swapResult (updCap s (fun c => { c with active := upd c.active m (fun _ => some b) })) 1 0

/-- The first refusal of a swap (DEDUCED, log 74). -/
def swapRefusal (s : State) (m : Nat) (b : Bool) : Option Nat :=
  if slotView s m b == .loading then some 3
  else if slotView s m b != .ready then some 5
  else if (slotSt s m b).arb < rollbackCount s then some 6
  else if nth s.cap.active m none == some b then some 7
  else none

/-- A swap that must advance the anti-rollback counter first (R620). -/
def swapBlows (s : State) (m : Nat) (b : Bool) : Bool :=
  life s == .sealed && (slotSt s m b).adv && decide (rollbackCount s < (slotSt s m b).arb)

/-- A `CAP_CTRL` write with OP = SWAP. -/
def swapAct (m : Nat) (b : Bool) : RegAct := fun s =>
  if s.cap.swap.isSome then (s, stBusy)
  else match swapRefusal s m b with
    | some k => (swapResult s 2 k, stOk)
    | none => if swapBlows s m b then (updCap s (fun c => { c with swap := some (m, b) }), stOk) else (activate s m b, stOk)

/-- Fuse bits blown from bit 0 up to n. -/
def blowTo (w : BitVec 64) (n : Nat) : BitVec 64 := w ||| BitVec.ofNat 64 (2 ^ n - 1)

/-- SWAP_EFFECT (R619, R620): the fuses are blown up to `ARB` and the swap takes effect, or bit `bad` fails to program. -/
def execSwapEffect (bad : Option Nat) (s : State) : Host.Outcome State Fault Refusal :=
  match s.cap.swap with
  | none => .next s
  | some (m, b) =>
    let arb := (slotSt s m b).arb
    let blow := fun n => { s with fuses := { s.fuses with rollback := blowTo s.fuses.rollback n } }
    match bad.filter (fun k => decide (k < arb) && !s.fuses.rollback.getLsbD k) with
    | some k => .next (deviceFault (instant (swapResult (blow k) 3 0)) cFuse (BitVec.ofNat 8 k) 21 8)
    | none => .next (activate (blow arb) m b)

/-- A `CAP_CTRL` write with OP = UNLOAD (DEDUCED, log 74). -/
def unloadAct (m : Nat) (b : Bool) : RegAct := fun s =>
  if s.cap.swap.isSome then (s, stBusy)
  else if slotRecorded s m b then (swapResult s 2 2, stOk)
  else if (slotSt s m b).st == .loading then (swapResult s 2 3, stOk)
  else if (slotSt s m b).st != .ready then (swapResult s 2 7, stOk)
  else (swapResult (dropSlot s m b) 1 0, stOk)

/-! ### Registers (R628) -/

/-- A write of `CAP_CTRL`. -/
def capCtrlAct (v : Word) : RegAct := fun s =>
  let m := bits v 20 16
  let b := bit v 8
  if bits v 31 28 = 1 then installAct m b s
  else if bits v 31 28 = 2 then swapAct m b s
  else if bits v 31 28 = 3 then unloadAct m b s
  else if bits v 31 28 = 4 then (abortInstall s 1, stOk)
  else (s, stOk)

/-- CAP_INSTALL (R612). -/
def execCapInstall (f : Fr) (v : Word) (s : State) : Host.Outcome State Fault Refusal := .next (wframe f 0x82 v (capCtrlAct v) s)

/-- CAP_SWAP (R619). -/
def execCapSwap (f : Fr) (v : Word) (s : State) : Host.Outcome State Fault Refusal := .next (wframe f 0x82 v (capCtrlAct v) s)

/-- CAP_UNLOAD (R622). -/
def execCapUnload (f : Fr) (v : Word) (s : State) : Host.Outcome State Fault Refusal := .next (wframe f 0x82 v (capCtrlAct v) s)

/-- CAP_ABORT (R628). -/
def execCapAbort (f : Fr) (v : Word) (s : State) : Host.Outcome State Fault Refusal := .next (wframe f 0x82 v (capCtrlAct v) s)

def SlotState.code : SlotState → Nat
  | .empty => 0
  | .loading => 1
  | .ready => 2

/-- `CAP_STATUS`. -/
def capStatus (s : State) : Word :=
  let c := s.cap
  mkWord [(31, 1, b2n c.inst.isSome), (28, 3, installPhase s), (24, 4, c.iresult), (16, 8, c.icode.toNat), (8, 8, c.icase.toNat),
    (6, 1, b2n c.swap.isSome), (4, 2, c.sresult), (0, 4, c.scase)]

/-- `CAP_SLOTS`. -/
def capSlots (s : State) : Word :=
  let m := s.cap.msel
  let a := nth s.cap.active m none
  let arb := match a with
    | some b => (slotSt s m b).arb
    | none => 0
  let act := match a with
    | none => 0
    | some false => 1
    | some true => 2
  mkWord [(31, 1, b2n s.sce.loaded), (24, 7, arb), (16, 5, m), (4, 2, act), (2, 2, (slotView s m true).code), (0, 2, (slotView s m false).code)]

/-- A read of index 0x82 to 0x86. -/
def capRead (s : State) (i : Nat) : Word :=
  if i = 0x83 then capStatus s
  else if i = 0x84 then capSlots s
  else if i = 0x85 then s.fuses.rollback.setWidth 32
  else if i = 0x86 then (s.fuses.rollback >>> 32).setWidth 32
  else 0

/-- A write of index 0x82 to 0x86. -/
def capAct (i : Nat) (v : Word) : RegAct := fun s =>
  if i = 0x82 then capCtrlAct v s
  else if i = 0x84 then (updCap s (fun c => { c with msel := bits v 20 16 }), stOk)
  else (s, stOk)

/-- A read of a register of I58. -/
def i58Read (s : State) (off : Nat) : Option Word :=
  let c := s.cap
  if off = 0x100 then some c.addr
  else if off = 0x104 then some c.len
  else if off = 0x108 then some c.plTsr
  else if off = 0x10C then some c.plLs
  else if off = 0x110 then some c.plClay0
  else if off = 0x114 then some c.plClay1
  else if off = 0x118 then some c.plIds
  else if off = 0x11C then some c.plScc
  else if off = 0x120 then
    some (if installPhase s = 3 ∨ installPhase s = 6 then BitVec.ofNat 32 (Config.passBytes s.tim.dt % (c.len.toNat + 1)) else 0)
  else none

/-- A write of a register of I58 (R611). -/
def i58Write (off : Nat) (v : Word) : RegAct := fun s =>
  let set := fun (f : Cap → Cap) => if s.cap.inst.isSome then (s, stBusy) else (updCap s f, stOk)
  let keep := fun hi lo => mkWord [(lo, hi + 1 - lo, bits v hi lo)]
  if off = 0x100 then set (fun c => { c with addr := keep 31 6 })
  else if off = 0x104 then set (fun c => { c with len := v })
  else if off = 0x108 then set (fun c => { c with plTsr := keep 31 8 })
  else if off = 0x10C then set (fun c => { c with plLs := keep 17 6 })
  else if off = 0x110 then set (fun c => { c with plClay0 := keep 31 6 })
  else if off = 0x114 then set (fun c => { c with plClay1 := keep 31 6 })
  else if off = 0x118 then set (fun c => { c with plIds := mkWord [(16, 14, bits v 29 16), (0, 10, bits v 9 0)] })
  else if off = 0x11C then set (fun c => { c with plScc := keep 15 3 })
  else if off = 0x120 then (s, stOk)
  else (s, stAddr)

/-! ### Resets and power (R624, R629, 04 R125) -/

/-- Every slot EMPTY, an install and a swap discarded, the registers at their reset values. -/
def capReset (s : State) : State := { s with cap := .reset }

/-- I58's registers go with its domain, an install with the firmware's. -/
def capPowerOff (s : State) (pd : Nat) : State :=
  let s := if pd = 19 then updCap s (fun c =>
    { c with addr := 0, len := 0, plTsr := 0, plLs := 0, plClay0 := 0, plClay1 := 0, plIds := 0, plScc := 0 }) else s
  match s.cap.inst with
  | some i =>
    if pd = 19 ∨ pd = 5 then
      updCap (if i.silt then s else updSlot s i.model i.slotB (fun _ => .empty)) (fun c => { c with inst := none })
    else s
  | none => s

/-- Slot numbers. -/
def slotNums : List (Nat × Bool) := (List.range 32).flatMap (fun m => [(m, false), (m, true)])

/-- Slots whose image lies in the range of memory [lo, hi) that loses its contents are EMPTY (04 R125) (DEDUCED, log 75). -/
def slotsLost (s : State) (lo hi : Nat) : State :=
  slotNums.foldl (fun t x =>
    let sl := slotSt t x.1 x.2
    if sl.st == .ready && (imgRegions t sl.img).any (fun r => !r.1 && decide (r.2.1 < hi) && decide (lo < r.2.2.1)) then
      dropSlot t x.1 x.2
    else t) s

end Sys2Proof.Machine
end

