-- ==== Sys2Proof/Machine/Slip.lean ====
section
/-! DEFINITION. The Slip ports (chapter 07): enable and training, credits, sequence numbers and replay, ingress into queues, egress from
queues, link down and what survives. -/

namespace Sys2Proof.Machine

open Sys2Proof

/-- Modulus of the credit counts. -/
def creditMod : Nat := 2 ^ 14

/-! ### The port -/

/-- Slip ports in order. -/
def ports : List Port := [.slp0, .slp1]

/-- The pads of a port are latched (04 R157). -/
def portPads (s : State) (p : Port) : Bool :=
  match p with
  | .slp0 => s.pwr.pads.getLsbD 3
  | .slp1 => s.pwr.pads.getLsbD 4

/-- The port's islands are held in reset. -/
def portHeld (s : State) (p : Port) : Bool :=
  match p with
  | .slp0 => (islSt s 55).held || (islSt s 56).held
  | .slp1 => (islSt s 62).held

/-- The port works: present, powered and clocked, its islands out of reset, its pads not latched, PLL1 locked. -/
def portRuns (s : State) (p : Port) : Bool :=
  portPresent s p && pdOn s (portPd p) && !portHeld s p && !portPads s p && !s.clk.relock1

/-- The bridge to the I/O tile carries transfers (17 R673). -/
def bridgeUp (s : State) (p : Port) : Bool :=
  match p with
  | .slp0 => true
  | .slp1 => (tileSt s .io).link == .up

/-- The link state changes: an interrupt source (06 R242). -/
def setLink (s : State) (p : Port) (st : LinkState) : State :=
  if (slipSt s p).state = st then s else raiseInt (updSlip s p (fun x => { x with state := st })) (portInt p)

/-- `EN`. -/
def Slip.en (x : Slip) : Bool := bit x.ctrl 0

/-- CLOCK is reached: `RETRAIN` is cleared. -/
def enterClock (s : State) (p : Port) : State := setLink (updSlip s p (fun x => { x with ctrl := setBit x.ctrl 4 false })) p .clock

/-- CONFIG is entered: counts of TS sets restart. -/
def enterConfig (s : State) (p : Port) : State :=
  setLink (updSlip s p (fun x =>
    { x with tsRun := 0, tsAckedRx := 0, tsAckedTx := 0, acked := false, tsCause := 0, tsSeen := false })) p .config

/-- The link leaves UP (R306, R307): the replay under way stops, no NAK holds. -/
def dropUp (s : State) (p : Port) : State :=
  if (slipSt s p).state = .up then
    updSlip s p (fun x => { x with down := true, downs := satInc 0xFF x.downs, resend := 0, nakHold := false })
  else s

/-- The link goes down and enters CLOCK. -/
def linkDown (s : State) (p : Port) : State := enterClock (dropUp s p) p

/-! ### Items in flight (R302, R309) -/

/-- A queue that a port drains: bound for egress (R301). No Slip frame reaches Q16383 (11 R463). -/
def drains (s : State) (p : Port) (q : Nat) : Bool := boundOn (slipSt s p) true q && q != 16383

/-- The queues that a port's binding table names in one direction, without repeats. -/
def boundQs (x : Slip) (egress : Bool) : List Nat :=
  ((x.bind.filter (fun w => bit w 31 && bit w 30 == egress)).map (fun w => bits w 13 0)).eraseDups

/-- An acknowledged frame releases its items. -/
def releaseFrame (s : State) (f : TxFrame) : State :=
  if f.items = 0 then s
  else updQd s f.frame.qid.toNat (fun d => if d.scope = scTxn then { d with fp := d.plus d.fp f.items } else d)

/-- The runs that the unacknowledged frames of queue q carried (DEDUCED, log 72). -/
def sentRuns (q : Nat) (fs : List TxFrame) : List Run :=
  (fs.filter (fun t => t.frame.qid.toNat == q && (t.frame.typ == 1 || t.frame.typ == 2))).map (fun t =>
    ⟨t.frame.job, t.items, if t.frame.typ = 2 then some t.frame.failed else none⟩)

/-- The replay buffer is discarded and RP goes back to FP on every egress queue (R309), with the runs and COMMIT_MARKs that were sent. -/
def discardReplay (s : State) (p : Port) : State :=
  let fs := (slipSt s p).replay
  let s := (boundQs (slipSt s p) true).foldl (fun t q =>
    if drains t p q then setRuns (updQd t q (fun d => { d with rp := d.fp })) q (sentRuns q fs ++ runsOf t q) else t) s
  updSlip s p (fun x => { x with replay := [], resend := 0, fruitless := 0 })

/-- The sequence state restarts at 0. -/
def restartSeq (s : State) (p : Port) : State :=
  updSlip (discardReplay s p) p (fun x => { x with nextRx := 0, txSeq := 0, fresh := true, nakHold := false })

/-! ### Enable, disable, retrain (R264, R276, R306, R309) -/

/-- A write of `SLPn_CTRL`. -/
def slpCtrlAct (p : Port) (v : Word) : RegAct := fun s =>
  let old := (slipSt s p).ctrl
  let en := bit v 0
  let rate := if bit old 0 || bits v 2 1 == 3 then bits old 2 1 else bits v 2 1
  let retrain := bit old 4 || bit v 4
  let s := updSlip s p (fun x => { x with ctrl := mkWord [(4, 1, b2n retrain), (3, 1, bits v 3 3), (1, 2, rate), (0, 1, b2n en)] })
  if en && !bit old 0 then (enterClock s p, stOk)
  else if !en && bit old 0 then (setLink (restartSeq s p) p .disabled, stOk)
  else if en && bit v 4 then (linkDown s p, stOk)
  else (s, stOk)

/-- The index of `SLPn_CTRL`. -/
def slpIdx : Port → Nat
  | .slp0 => 0xA0
  | .slp1 => 0xA8

/-- SLP_ENABLE (R264): a write of `SLPn_CTRL`. -/
def execSlpEnable (f : Fr) (p : Port) (v : Word) (s : State) : Host.Outcome State Fault Refusal :=
  .next (wframe f (BitVec.ofNat 8 (slpIdx p)) v (slpCtrlAct p v) s)

/-- SLP_DISABLE (R309): a write of `SLPn_CTRL`. -/
def execSlpDisable (f : Fr) (p : Port) (v : Word) (s : State) : Host.Outcome State Fault Refusal :=
  .next (wframe f (BitVec.ofNat 8 (slpIdx p)) v (slpCtrlAct p v) s)

/-- SLP_RETRAIN (R306): a write of `SLPn_CTRL`. -/
def execSlpRetrain (f : Fr) (p : Port) (v : Word) (s : State) : Host.Outcome State Fault Refusal :=
  .next (wframe f (BitVec.ofNat 8 (slpIdx p)) v (slpCtrlAct p v) s)

/-! ### Training (R276 to R281) -/

/-- TRAIN_CLOCK_OK (R276). -/
def execTrainClockOk (p : Port) (s : State) : Host.Outcome State Fault Refusal :=
  if portRuns s p && (slipSt s p).state == .clock then .next (setLink s p .align) else .next s

/-- TRAIN_ALIGNED (R276). -/
def execTrainAligned (p : Port) (s : State) : Host.Outcome State Fault Refusal :=
  if portRuns s p && (slipSt s p).state == .align then .next (enterConfig s p) else .next s

/-- The defect of a TS set as a `FAIL` code (R278); 0 for one whose check byte alone is wrong. -/
def tsDefect (x : Slip) (ts : TsSet) : Nat :=
  if ts.skewed then 3
  else if !ts.lanesOk then 4
  else if !ts.good then 0
  else if ts.rate.toNat ≠ bits x.ctrl 2 1 then 5
  else if ts.version ≠ 1 then 6
  else 0

/-- A TS set counts as good. -/
def tsGood (x : Slip) (ts : TsSet) : Bool := ts.good && tsDefect x ts == 0

/-- The CREDIT state: CUM of each VC is its receive buffer in units, both sides' counts restart (R282, R283; DEDUCED, log 28). -/
def enterCredit (s : State) (p : Port) : State :=
  setLink (updSlip s p (fun x =>
    { x with peerCum := many 3 0, sent := many 3 0, gotCredit := many 4 false, cum := [16, 192, 0, 0], advert := [16, 192, 0, 0],
             replay := x.replay.map (fun f => { f with charged := false }) })) p .credit

/-- The peer's sequence state restarted: the replay buffer is discarded, both numbers restart at 0 (R310) (DEDUCED, log 72). -/
def peerFresh (s : State) (p : Port) (ts : TsSet) : State := if ts.fresh then restartSeq s p else s

/-- A good TS set in CONFIG: counted; for each one received the port sends one (DEDUCED, log 29). -/
def configTs (s : State) (p : Port) (ts : TsSet) : State :=
  let s := peerFresh s p ts
  let s := updSlip s p (fun x =>
    let run := satInc 16 x.tsRun
    let ackd := x.acked || decide (4 ≤ run)
    { x with tsRun := run, tsAckedRx := if ts.acked then satInc 16 x.tsAckedRx else 0, acked := ackd,
             tsAckedTx := if ackd then satInc 16 x.tsAckedTx else 0, tsSeen := true, peerNext := ts.nextRx })
  let x := slipSt s p
  if x.tsAckedRx = 16 ∧ x.tsAckedTx = 16 then enterCredit s p else s

/-- A bad TS set in CONFIG breaks the runs. -/
def configBad (s : State) (p : Port) (ts : TsSet) : State :=
  updSlip s p (fun x =>
    let c := tsDefect x ts
    { x with tsRun := 0, tsAckedRx := 0, tsCause := if c = 0 then x.tsCause else c })

/-- TS_SET_RECEIVE (R276 to R281). In UP any TS set takes the link down (R279), one of another rate or version too; four columns whose
lanes or check bytes are wrong are no TS set. -/
def execTsSetReceive (p : Port) (ts : TsSet) (s : State) : Host.Outcome State Fault Refusal :=
  if !portRuns s p then .next s
  else
    let good := tsGood (slipSt s p) ts
    match (slipSt s p).state with
    | .config => .next (if good then configTs s p ts else configBad s p ts)
    | .up =>
      if ts.good && ts.lanesOk && !ts.skewed then
        let s := enterConfig (dropUp s p) p
        .next (if good then configTs s p ts else configBad s p ts)
      else .next s
    | _ => .next s

/-- TRAIN_STATE_TIMEOUT (R276, R278): back to CLOCK with the cause. A CONFIG state in which no TS set was received has
not deskewed its lanes (DESIGN CHOICE, log 27; DEDUCED, log 72). -/
def execTrainStateTimeout (p : Port) (s : State) : Host.Outcome State Fault Refusal :=
  let x := slipSt s p
  let fail := fun (s : State) (c : Nat) => enterClock (raiseInt (updSlip s p (fun x => { x with fail := c })) (portInt p)) p
  if !portRuns s p then .next s
  else match x.state with
    | .clock => .next (fail s 1)
    | .align => .next (fail s 2)
    | .config =>
      if x.tsCause ≠ 0 then .next (fail s x.tsCause)
      else if !x.tsSeen then .next (fail s 3)
      else .next (fail { s with freeK := s.freeK + 1 } (Config.trainCause s.freeK).toNat)
    | .credit => .next (fail { s with freeK := s.freeK + 1 } (Config.trainCause s.freeK).toNat)
    | _ => .next s

/-- SLIP_TRAINING_DETECT (R312, 04 R134): the receiver of an enabled port sees a training peer: in IDLE, and during any entry, where
it is a wake event before AP5. A latched pad's input is ignored (04 R156). In stable RUN it is no wake event. -/
def execSlipTrainingDetect (p : Port) (s : State) : Host.Outcome State Fault Refusal :=
  if portPresent s p && (slipSt s p).en && pdPowered s (portPd p) && !portPads s p &&
      (s.pwr.seq != .stable || s.pwr.st == .idle) then
    .next (fireWake (askFio s) wakeSlip false)
  else .next s

/-! ### Credits (R282 to R285, R311) -/

/-- From AP1 of any entry the port freezes its credit and starts no new frame. -/
def portFrozen (s : State) : Bool := (pastAp1 s).isSome

/-- The credit counts are advertised, unless frozen. -/
def advertise (s : State) (p : Port) : State :=
  if (slipSt s p).state == .up && !portFrozen s then updSlip s p (fun x => { x with advert := x.cum }) else s

/-- The content of an accepted frame has left the buffer. -/
def returnCredit (s : State) (p : Port) (f : SlipFrame) : State :=
  let v := f.vc.toNat
  advertise (updSlip s p (fun x =>
    { x with used := upd x.used v (· - (frameCost f)), cum := upd x.cum v (fun c => (c + (frameCost f)) % creditMod) })) p

/-- Units that the device may still consume on a VC. -/
def Slip.avail (x : Slip) (v : Nat) : Nat := (nth x.peerCum v 0 + creditMod - nth x.sent v 0 % creditMod) % creditMod

/-- UP (R308): frames before the peer's `NEXT_RX` are freed, the rest are sent again. -/
def enterUp (s : State) (p : Port) : State :=
  let x := slipSt s p
  let k := match x.replay with
    | [] => 0
    | f :: _ => (x.peerNext - f.frame.seq).toNat
  let k := if x.replay.length < k then 0 else k
  let s := (x.replay.take k).foldl releaseFrame s
  let rest := x.replay.drop k
  setLink (updSlip s p (fun x =>
    { x with replay := rest, resend := rest.length, fresh := false, fruitless := 0, nakHold := false,
             replays := if rest.isEmpty then x.replays else satInc 0xFF x.replays })) p .up

/-- CREDIT_RECEIVE (R282, R276). -/
def execCreditReceive (p : Port) (vc : BitVec 2) (cum : BitVec 14) (s : State) : Host.Outcome State Fault Refusal :=
  if !portRuns s p then .next s
  else
    let t := updSlip s p (fun x => { x with peerCum := upd x.peerCum vc.toNat (fun _ => cum.toNat) })
    match (slipSt s p).state with
    | .up => .next t
    | .credit =>
      let t := updSlip t p (fun x => { x with gotCredit := upd x.gotCredit vc.toNat (fun _ => true) })
      .next (if (slipSt t p).gotCredit.all (fun b => b) then enterUp t p else t)
    | _ => .next s

/-- CREDIT_REFRESH (R285). -/
def execCreditRefresh (p : Port) (s : State) : Host.Outcome State Fault Refusal :=
  if portRuns s p then .next (advertise s p) else .next s

/-! ### Acknowledgement and replay (R288 to R295) -/

/-- The place of a sequence number in the replay buffer. -/
def findSeq (x : Slip) (n : BitVec 16) : Option Nat := x.replay.findIdx? (fun f => f.frame.seq == n)

/-- The first k frames of the replay buffer are freed. -/
def freeFrames (s : State) (p : Port) (k : Nat) : State :=
  let x := slipSt s p
  let s := (x.replay.take k).foldl releaseFrame s
  updSlip s p (fun x =>
    { x with replay := x.replay.drop k, resend := Nat.min x.resend (x.replay.length - k), fruitless := if k = 0 then x.fruitless else 0 })

/-- ACK_RECEIVE (R293, R295). -/
def execAckReceive (p : Port) (n : BitVec 16) (s : State) : Host.Outcome State Fault Refusal :=
  if !(portRuns s p && (slipSt s p).state == .up) then .next s
  else match findSeq (slipSt s p) n with
    | some i => .next (freeFrames s p (i + 1))
    | none => .next s

/-- Every unacknowledged frame is to be sent again; after four replays without progress the link goes down (R294) (DEDUCED, log 72). -/
def startReplay (s : State) (p : Port) : State :=
  if 4 ≤ (slipSt s p).fruitless then linkDown s p
  else updSlip s p (fun x =>
    { x with resend := x.replay.length, replays := satInc 0xFF x.replays, fruitless := x.fruitless + 1 })

/-- NAK_RECEIVE (R293, R295). -/
def execNakReceive (p : Port) (n : BitVec 16) (s : State) : Host.Outcome State Fault Refusal :=
  if !(portRuns s p && (slipSt s p).state == .up) then .next s
  else match findSeq (slipSt s p) n with
    | some i => .next (startReplay (freeFrames s p i) p)
    | none => .next s

/-- REPLAY_TIMEOUT (R294): the oldest frame has been sent and stands unacknowledged. -/
def execReplayTimeout (p : Port) (s : State) : Host.Outcome State Fault Refusal :=
  let x := slipSt s p
  if portRuns s p && x.state == .up && decide (x.resend < x.replay.length) then .next (startReplay s p) else .next s

/-- RX_SILENCE_TIMEOUT (R306). -/
def execRxSilenceTimeout (p : Port) (s : State) : Host.Outcome State Fault Refusal :=
  if portRuns s p && (slipSt s p).state == .up then .next (linkDown s p) else .next s

/-- BAD_CONTROL_COLUMN (R268): counted while the receiver is enabled, in whatever link state. -/
def execBadControlColumn (p : Port) (s : State) (c : BadColumn := .symbol) : Host.Outcome State Fault Refusal :=
  if !Instr.wf (.badControlColumn p c) then .fault .illFormed
  else if portRuns s p && (slipSt s p).en then .next (updSlip s p (fun x => { x with rxbad := satInc 0xFF x.rxbad }))
  else .next s

/-! ### Receiving frames (R287 to R300, R314) -/

/-- The receiver takes frames: UP, and not past AP2 of an entry to WATCH or deeper. -/
def receives (s : State) (p : Port) : Bool :=
  portRuns s p && (slipSt s p).state == .up &&
    (match s.pwr.seq with
     | .entry step _ _ _ => decide (step ≤ 2) || s.pwr.tgt == .idle
     | _ => true)

/-- A NAK goes out, unless one holds (R292). -/
def sendNak (s : State) (p : Port) : State :=
  updSlip s p (fun x => if x.nakHold then x else { x with lastNak := some x.nextRx, nakHold := true })

/-- BAD_FRAME (R292). -/
def execBadFrame (p : Port) (k : BadFrameKind) (s : State) : Host.Outcome State Fault Refusal :=
  if !Instr.wf (.badFrame p k) then .fault .illFormed
  else if !receives s p then .next s
  else
    let t := sendNak s p
    match k with
    | .ahead => .next t
    | _ => .next (updSlip t p (fun x => { x with rxbad := satInc 0xFF x.rxbad }))

/-- NAK_HOLDOFF_EXPIRY (R292). -/
def execNakHoldoffExpiry (p : Port) (s : State) : Host.Outcome State Fault Refusal :=
  .next (updSlip s p (fun x => { x with nakHold := false }))

/-- A rejected frame (R298): counted, its header recorded, its space returned. -/
def rejectFrame (s : State) (p : Port) (f : SlipFrame) : State :=
  returnCredit (updSlip s p (fun x => { x with rej := satInc 0xFF x.rej, lastRej := frameHead f })) p f

/-- An ITEM frame can go into its queue: bound, of an ingress class, a whole number of items (R296). -/
def ingressOk (s : State) (p : Port) (f : SlipFrame) : Bool :=
  let d := qd s f.qid.toNat
  f.vc == 1 && boundOn (slipSt s p) false f.qid.toNat && (d.cls == clsCmd || d.cls == clsData || d.cls == clsSrc) &&
    decide (0 < f.len.toNat) && decide (f.len.toNat ≤ 4096) && f.len.toNat % d.item == 0

/-- The queue has space for every item of the frame, and the queue manager and the bridge carry the write (R300). -/
def ingressFits (s : State) (p : Port) (f : SlipFrame) : Bool :=
  let d := qd s f.qid.toNat
  islRuns s 24 && pdOn s 7 && bridgeUp s p && decide (f.len.toNat / d.item ≤ qFree s f.qid.toNat) &&
    !rangeHeld s (d.addr 0) (d.depth * d.item)

/-- The items are written and published together (R299). -/
def ingressWrite (s : State) (p : Port) (f : SlipFrame) : State :=
  let q := f.qid.toNat
  let n := (qd s q).item
  returnCredit (publish (pushItems s q (cutItems n (f.len.toNat / n) f.payload)) q) p f

/-- An accepted frame leaves the receive buffer: an ITEM frame into its queue, a PING answered, anything else but a PONG rejected
(R274, R296, R298). None: it waits at the head of its VC for space (R300). -/
def serveFrame (s : State) (p : Port) (f : SlipFrame) : Option State :=
  if f.typ = 1 then
    (if !ingressOk s p f then some (rejectFrame s p f)
     else if ingressFits s p f then some (ingressWrite s p f)
     else none)
  else if (f.typ = 4 ∨ f.typ = 5) ∧ f.vc = 0 ∧ f.len.toNat ≤ 64 then
    let s := returnCredit s p f
    some (if f.typ = 4 then
      updSlip s p (fun x => x.putVc0 (withCrc
        { typ := 5, vc := 0, qid := 0, len := f.len, seq := 0, job := f.seq, qual := 0, failed := false, tstamp := 0, rsvd := 0,
          rsvd2 := 0, payload := f.payload, crc := 0 }))
    else s)
  else some (rejectFrame s p f)

/-- The frames of VC1 leave the buffer in order until one has to wait (R300). -/
def serveRx (s : State) (p : Port) : List SlipFrame → State
  | [] => updSlip s p (fun x => { x with rxBuf := [] })
  | f :: r =>
    match serveFrame s p f with
    | some t => serveRx t p r
    | none => updSlip s p (fun x => { x with rxBuf := f :: r })

/-- What becomes of an accepted frame: on VC1 it goes behind those that wait. -/
def takeFrame (s : State) (p : Port) (f : SlipFrame) : State :=
  if f.vc = 1 then
    (if (slipSt s p).rxBuf.isEmpty then serveRx s p [f] else updSlip s p (fun x => { x with rxBuf := x.rxBuf ++ [f] }))
  else (serveFrame s p f).getD s

/-- A frame with good CRC and framing (R287, R289 to R292). A duplicate, or a frame ahead of `NEXT_RX`, is discarded before its cost is
held against the buffer (DESIGN CHOICE, log 97). -/
def receiveFrame (p : Port) (f : SlipFrame) (s : State) : State :=
  let x := slipSt s p
  if !receives s p then s
  else if f.seq = x.nextRx then
    let cap := if f.vc = 0 then 16 - nth x.used 0 0 else if f.vc = 1 then 192 - nth x.used 1 0 else 0
    if cap < (frameCost f) then linkDown s p
    else
      takeFrame (updSlip s p (fun x =>
        { x with nextRx := x.nextRx + 1, lastAck := some f.seq, nakHold := false, used := upd x.used f.vc.toNat (· + (frameCost f)) })) p f
  else if (x.nextRx - f.seq).toNat ≤ 32768 then updSlip s p (fun x => { x with lastAck := some (x.nextRx - 1) })
  else sendNak s p

/-- A received frame whose term is well formed. -/
def frameIn (c : Instr) (p : Port) (f : SlipFrame) (s : State) : Host.Outcome State Fault Refusal :=
  if c.wf then .next (receiveFrame p f s) else .fault .illFormed

/-- ITEM_FRAME_RECEIVE (R296 to R300). -/
def execItemFrameReceive (p : Port) (f : SlipFrame) (s : State) : Host.Outcome State Fault Refusal :=
  frameIn (.itemFrameReceive p f) p f s

/-- PING_RECEIVE (R274). -/
def execPingReceive (p : Port) (f : SlipFrame) (s : State) : Host.Outcome State Fault Refusal := frameIn (.pingReceive p f) p f s

/-- PONG_RECEIVE (R271). -/
def execPongReceive (p : Port) (f : SlipFrame) (s : State) : Host.Outcome State Fault Refusal := frameIn (.pongReceive p f) p f s

/-- RESERVED_TYPE_FRAME_RECEIVE (R296). -/
def execReservedTypeFrameReceive (p : Port) (f : SlipFrame) (s : State) : Host.Outcome State Fault Refusal :=
  frameIn (.reservedTypeFrameReceive p f) p f s

/-- INGRESS_FRAME_WRITE (R300): the frame at the head of VC1 gets its space, and those behind it follow in order. A frame whose queue is
no longer one that it may enter is rejected (DEDUCED, log 30). -/
def execIngressFrameWrite (p : Port) (s : State) : Host.Outcome State Fault Refusal :=
  if portRuns s p then .next (serveRx s p (slipSt s p).rxBuf) else .next s

/-! ### Sending frames (R301 to R305) -/

/-- The job of the next items of queue q and how many of them may go in one frame (R301): those of the oldest run; items that no commit
published are of job 0. -/
def nextRun (s : State) (q : Nat) : BitVec 16 × Nat × Option Bool :=
  match runsOf s q with
  | r :: _ => (r.job, Nat.min r.left (qd s q).vis, r.mark)
  | [] => (0, (qd s q).vis, none)

/-- Items that fit a frame with c units of credit. -/
def itemsFit (item c : Nat) : Nat := Nat.min (4096 / item) ((64 * c - 16) / item)

/-- VC of a queue's items. -/
def vcOf (d : QDesc) : Nat := if d.ovf then 2 else 1

/-- Body space left in the replay buffer (R288, R295). -/
def replayRoom (x : Slip) (f : SlipFrame) : Bool :=
  decide ((x.replay.map (fun t => (frameBody t.frame))).foldl (· + ·) 0 + (frameBody f) ≤ 16384) && decide (x.replay.length < 256)

/-- What queue q has to send: a frame and its number of items; behind the last item of a commit its COMMIT_MARK. -/
def queueFrame (s : State) (p : Port) (q : Nat) : Option (SlipFrame × Nat) :=
  let x := slipSt s p
  let d := qd s q
  let v := vcOf d
  let (job, n, mark) := nextRun s q
  let base : SlipFrame :=
    { typ := 1, vc := BitVec.ofNat 2 v, qid := BitVec.ofNat 14 q, len := 0, seq := 0, job, qual := 0,
      failed := false, tstamp := 0, rsvd := 0, rsvd2 := 0, payload := [], crc := 0 }
  if n = 0 then
    (match mark with
     | some failed => if 1 ≤ x.avail v then some ({ base with typ := 2, failed }, 0) else none
     | none => none)
  else
    let k := Nat.min n (itemsFit d.item (x.avail v))
    if k = 0 || itemsHeld s d d.rp k then none
    else some ({ base with len := BitVec.ofNat 13 (k * d.item),
                           payload := ((List.range k).map (fun i => readBytes s (d.addr (d.plus d.rp i)) d.item)).flatten }, k)

/-- Queues of a VC that have a frame to send, in rising number. -/
def sendable (s : State) (p : Port) (v : Nat) : List Nat :=
  ((boundQs (slipSt s p) true).filter (fun q => drains s p q && vcOf (qd s q) == v && (queueFrame s p q).isSome)).mergeSort

/-- The place of a VC's rank in the round-robin memory. -/
def rrIx (v rank : Nat) : Nat := (v - 1) * 4 + rank

/-- The queue served next: the highest rank, round-robin among equals of that VC and rank after the last one served (R305)
(DEDUCED, log 72). -/
def pickQueue (s : State) (p : Port) (v : Nat) : Option Nat :=
  let qs := sendable s p v
  let top := (qs.map (fun q => (qd s q).rank)).foldl max 0
  let eq := qs.filter (fun q => (qd s q).rank == top)
  let last := nth (slipSt s p).lastQueue (rrIx v top) 0
  (eq.find? (fun q => decide (last < q))).orElse fun _ => eq.head?

/-- A frame goes out: numbered, stamped, its CRC computed, kept for replay, its cost taken. -/
def sendFrame (s : State) (p : Port) (f : SlipFrame) (items : Nat) : State :=
  let f := withCrc { f with seq := (slipSt s p).txSeq, tstamp := BitVec.ofNat 32 (dtNow s), qual := qualNow s }
  updSlip (stamped s) p (fun x =>
    { x with txSeq := x.txSeq + 1, replay := x.replay ++ [⟨f, items, true⟩],
             sent := upd x.sent f.vc.toNat (fun n => (n + (frameCost f)) % creditMod) })

/-- A frame of queue q goes out: RP moves over its items, a COMMIT_MARK leaves its run. While the replay buffer cannot hold it, new
frames stall (R295). -/
def sendQueue (s : State) (p : Port) (q : Nat) : State :=
  match queueFrame s p q with
  | none => s
  | some (f, k) =>
    if !replayRoom (slipSt s p) f then s
    else
      let rs := runsOf s q
      let d := qd s q
      let s := sendFrame s p f k
      let s := setRuns s q (if k = 0 then rs.drop 1 else takeRuns rs k)
      let s := if k = 0 then s else updQd s q (fun d =>
        { d with rp := d.plus d.rp k, fp := if d.scope = scTxn then d.fp else d.plus d.rp k })
      updSlip s p (fun x =>
        { x with lastVc2 := vcOf d == 2, lastQueue := upd x.lastQueue (rrIx (vcOf d) d.rank) (fun _ => q) })

/-- The next frame of a replay, once its cost is covered (R284, R293). -/
def resendFrame (s : State) (p : Port) : State :=
  let x := slipSt s p
  let i := x.replay.length - x.resend
  match x.replay[i]? with
  | none => s
  | some t =>
    let v := t.frame.vc.toNat
    if t.charged then updSlip s p (fun x => { x with resend := x.resend - 1 })
    else if (frameCost t.frame) ≤ x.avail v then
      updSlip s p (fun x =>
        { x with resend := x.resend - 1, replay := upd x.replay i (fun t => { t with charged := true }),
                 sent := upd x.sent v (fun n => (n + (frameCost t.frame)) % creditMod) })
    else s

/-- A new frame: VC0 first, then VC1 and VC2 in turn while both have one (R305). While the replay buffer cannot hold the frame whose turn
it is, none goes (R295). -/
def newFrame (s : State) (p : Port) : State :=
  let x := slipSt s p
  match x.vc0.head?.filter (fun f => decide (frameCost f ≤ x.avail 0)) with
  | some f => if replayRoom x f then sendFrame (updSlip s p (fun x => { x with vc0 := x.vc0.drop 1 })) p f 0 else s
  | none =>
    let a := if x.lastVc2 then pickQueue s p 1 else pickQueue s p 2
    let b := if x.lastVc2 then pickQueue s p 2 else pickQueue s p 1
    match a.orElse fun _ => b with
    | some q => sendQueue s p q
    | none => s

/-- EGRESS_FRAME_SEND (R301 to R305, R311): a replay first, then a new frame. -/
def execEgressFrameSend (p : Port) (s : State) : Host.Outcome State Fault Refusal :=
  let x := slipSt s p
  if !(portRuns s p && x.state == .up && bridgeUp s p) then .next s
  else if x.resend ≠ 0 then .next (resendFrame s p)
  else if portFrozen s || !islRuns s 24 || !pdOn s 7 then .next s
  else .next (newFrame (instant s) p)

/-! ### Registers (R316, R317) -/

/-- Codes of `STATE`. -/
def LinkState.code : LinkState → Nat
  | .disabled => 0
  | .clock => 1
  | .align => 2
  | .config => 3
  | .credit => 4
  | .up => 5

/-- Direct register k of a port. -/
def slpRead (s : State) (p : Port) (k : Nat) : Word :=
  let x := slipSt s p
  let up := x.state == .up
  let av := fun (v : Nat) => if up then x.avail v else 0
  match k with
  | 0 => x.ctrl
  | 1 => mkWord [(16, 16, x.nextRx.toNat), (15, 1, b2n up), (12, 3, x.state.code), (9, 3, x.fail), (8, 1, b2n x.down),
      (0, 8, Nat.min 0xFF x.replay.length)]
  | 2 => mkWord [(24, 8, x.rxbad), (16, 8, x.replays), (8, 8, x.rej), (0, 8, x.downs)]
  | _ => mkWord [(24, 8, Nat.min 0xFF (av 0)), (16, 8, Nat.min 0xFF (av 2)), (0, 14, av 1)]

/-- A write of direct register k of a port. -/
def slpWrite (p : Port) (k : Nat) (v : Word) : RegAct := fun s =>
  match k with
  | 0 => slpCtrlAct p v s
  | 1 => (if bit v 8 then updSlip s p (fun x => { x with down := false }) else s, stOk)
  | _ => (s, stOk)

/-- A read of a block register of a port. -/
def slpBlockRead (s : State) (p : Port) (off : Nat) : Option Word :=
  let x := slipSt s p
  if off = 0x100 then some (x.lastRej.extractLsb' 48 32)
  else if off = 0x104 then some (x.lastRej.extractLsb' 16 32)
  else if off = 0x108 then some ((x.lastRej.extractLsb' 0 16).setWidth 32)
  else if 0x200 ≤ off ∧ off < 0x400 ∧ off % 4 = 0 then some (nth x.bind ((off - 0x200) / 4) 0)
  else none

/-- A write of a block register of a port (R317). -/
def slpBlockWrite (p : Port) (off : Nat) (v : Word) : RegAct := fun s =>
  if (slpBlockRead s p off).isNone then (s, stAddr)
  else if off < 0x200 then (s, stOk)
  else if (slipSt s p).en then (s, stAddr)
  else (updSlip s p (fun x => { x with bind := upd x.bind ((off - 0x200) / 4) (fun _ => v &&& 0xC0003FFF) }), stOk)

/-! ### Power (R312, R313) -/

/-- The transmitter stops at E4 of an IDLE entry: an enabled port stands in CLOCK when clocks return (DEDUCED, log 31). -/
def slpIdle (s : State) (p : Port) : State :=
  if (slipSt s p).en then enterClock (updSlip s p (fun x => { x with resend := 0, nakHold := false })) p else s

/-- The port's domain has lost power: everything but the counts since power-on reset is as at reset. -/
def slpPowerOff (s : State) (p : Port) : State :=
  updSlip s p (fun x =>
    { Slip.reset with rxbad := x.rxbad, replays := x.replays, rej := x.rej, downs := x.downs })

end Sys2Proof.Machine
end

