-- ==== Sys2Proof/Machine/Tile.lean ====
section
/-! DEFINITION. The die-to-die links of the tiles, their retrains and failures, and the CSI-2 receivers (chapter 17). -/

namespace Sys2Proof.Machine

open Sys2Proof

/-! ### Tiles -/

/-- The island and the domain of a tile (01 R32). -/
def tileIsl : Tile → Nat
  | .t0 => 60
  | .t1 => 61
  | .io => 62

def tilePd : Tile → Nat
  | .t0 => 20
  | .t1 => 21
  | .io => 22

/-- `ENG` of a tile's fault records (R672). -/
def tileEng : Tile → Nat
  | .t0 => 0xC
  | .t1 => 0xD
  | .io => 0xF

/-- Codes of tile faults (R672). -/
def cTileProbe : Byte := 0x48
def cTileLink : Byte := 0x49
def cTileFlap : Byte := 0x4A
def cTileRecover : Byte := 0x4B

/-- The record of a tile event. -/
def tileRec (s : State) (t : Tile) (code : Byte) : State :=
  deviceFault s code (BitVec.ofNat 8 (tileIx t)) (tileIsl t) (tileEng t)

/-- The tile's link works: present, its domain on or clock-gated, its island out of reset. -/
def linkLive (s : State) (t : Tile) : Bool := tilePresent s t && pdPowered s (tilePd t) && !(islSt s (tileIsl t)).held

/-- The operands of an engine's present command. -/
def curOpds (s : State) (e : Eng) : List Opd :=
  match (engSt s e).cur with
  | none => []
  | some l =>
    let c := cmdAt s (l.base + l.off)
    opdsOf s (laneEntry s e l) c ((qpOf s e l (laneEntry s e l) c).getD .absent)

/-- The engine's present command moves data to or from the tile. -/
def usesTile (s : State) (t : Tile) (e : Eng) : Bool := (curOpds s e).any (fun o => opdTile o == some t)

/-- A transfer of the engine's present command is in flight: it has begun, or has executed and not completed. -/
def inFlight (s : State) (e : Eng) : Bool :=
  match (engSt s e).cur with
  | some l => l.begun || l.stage == .executed
  | none => false

/-- The engine's lane waits at a fence for the acknowledgement of a write into [lo, hi). -/
def fenceOn (s : State) (e : Eng) (lo hi : Nat) : Bool :=
  match (engSt s e).cur with
  | some l => l.stage == .fenced && l.wbuf.any (fun w => meets w.1 w.2.length lo hi)
  | none => false

/-- The window of a tile's memory (01 R39). -/
def tileRange : Tile → Nat × Nat
  | .t0 => (0x80000000, 0xA0000000)
  | .t1 => (0xA0000000, 0xC0000000)
  | .io => (0, 0)

/-- The engine moves data to or from the tile, or waits for the tile to acknowledge its writes. -/
def movesTile (s : State) (t : Tile) (e : Eng) : Bool :=
  (usesTile s t e && inFlight s e) || fenceOn s e (tileRange t).1 (tileRange t).2

/-- The queue that a fault of the lane names: that of a TWAIT. -/
def twaitQueue (l : Lane) : Option Nat :=
  match l.stage with
  | .waitTile q _ _ => some q.toNat
  | _ => none

/-- TILE_FAULT for every engine that a test accepts. -/
def tileFaults (s : State) (p : Eng → Bool) : State := faultAll s cTileFault (hitLanes s (fun e _ => p e) twaitQueue)

/-- A job's outstanding transactions to an island end with a fault of the job. -/
def dropTxns (s : State) (isl : Nat) (code : Byte) : State :=
  let out := s.outstanding.filter (fun x => x.dst == isl)
  let s := { s with outstanding := s.outstanding.filter (fun x => x.dst != isl) }
  out.foldl (fun t x =>
    match x.entry with
    | some i => jobFault t i (jobRec t i code 0 0 isl 0xF none) false
    | none => t) s

/-- A window access or a debug access is under way to an address that a test accepts. -/
def hostAccess (s : State) (p : Nat → Bool) : Bool :=
  (s.win.pbusy && p s.win.addr.toNat) || s.win.posted.any (fun w => p w.addr.toNat) ||
    (match s.jtag.acc with
     | some (_, a, _) => p a.toNat
     | none => false)

/-! ### Frames of the CSI-2 receivers (R677) -/

/-- A receiver's state. -/
def csiIx : Csi → Nat
  | .r0 => 0
  | .r1 => 1

def csiSt (s : State) (r : Csi) : CsiSt := nth s.csis (csiIx r) .reset

def updCsi (s : State) (r : Csi) (f : CsiSt → CsiSt) : State := { s with csis := upd s.csis (csiIx r) f }

/-- Receivers and filters. -/
def csiAll : List Csi := [.r0, .r1]
def filters : List Nat := [0, 1, 2, 3]

/-- A filter's words and fields. -/
def filtW0 (c : CsiSt) (f : Nat) : Word := nth c.f0 f 0
def filtW1 (c : CsiSt) (f : Nat) : Word := nth c.f1 f 0
def filtQid (c : CsiSt) (f : Nat) : Nat := bits (filtW0 c f) 13 0
def filtLines (c : CsiSt) (f : Nat) : Nat := bits (filtW1 c f) 31 16
def filtBytes (c : CsiSt) (f : Nat) : Nat := bits (filtW1 c f) 15 0

/-- The filter is in use on a virtual channel. -/
def filtVc (c : CsiSt) (f : Nat) (vc : BitVec 2) : Bool := bit (filtW0 c f) 31 && bits (filtW0 c f) 29 28 == vc.toNat

/-- A filter's open frame. -/
def openFrame (c : CsiSt) (f : Nat) : Option CsiFrame := nth c.open_ f none

/-- An open frame fails: WP goes back to PP, the reservation is cancelled, the frame is counted. -/
def failFrame (s : State) (r : Csi) (f : Nat) : State :=
  match openFrame (csiSt s r) f with
  | none => s
  | some _ =>
    let q := filtQid (csiSt s r) f
    let s := if (qd s q).cls = clsSrc then updQd s q (fun d => { d with wp := d.pp }) else s
    updCsi s r (fun c => { c with open_ := upd c.open_ f (fun _ => none), badfrm := satInc 0xFF c.badfrm })

/-- Every open frame of a receiver fails. -/
def failFrames (s : State) (r : Csi) : State := filters.foldl (fun t f => failFrame t r f) s

/-- Every open frame of both receivers fails. -/
def failCsi (s : State) : State := csiAll.foldl failFrames s

/-! ### Tile failure (R669, R673) -/

/-- A domain of a failed tile is switched off. -/
def tileOff (s : State) (t : Tile) : State :=
  let s := updPwr s (fun p => { p with pd := upd p.pd (tilePd t) (fun _ => .off) })
  let s := { s with isl := upd s.isl (tileIsl t) (fun i => { i with held := true }) }
  match t with
  | .t0 => loseClay s 0x80000000 0xA0000000
  | .t1 => loseClay s 0xA0000000 0xC0000000
  | .io => s

/-- What the failure of the I/O tile does besides (R673). -/
def ioFailure (s : State) : State :=
  let s := setLink (updSlip (restartSeq s .slp1) .slp1 (fun x => { x with ctrl := setBit x.ctrl 0 false })) .slp1 .disabled
  let s := csiAll.foldl (fun t r => updCsi t r (fun c => { c with ctrl := setBit c.ctrl 0 false, ulps := false })) (failCsi s)
  updPwr { s with iotXfer := xferTimeout s.iotXfer false } (fun p => { p with pads := p.pads ||| 0x70 })

/-- The tile is declared failed: absent for the rest of the power cycle. -/
def declareFailed (s : State) (t : Tile) : State :=
  let s := updTile s t (fun x => { x with failed := true, link := .training, defer := false, req := false, recovery := false })
  let s := tileFaults s (fun e =>
    movesTile s t e ||
      (match stageOf s e with
       | some (.waitTile q _ _) => linkTile (qd s q.toNat) == some t
       | _ => false))
  let s := dropTxns s (tileIsl t) cTileFault
  let s := installLost s t
  let s := match t with
    | .io => ioFailure s
    | _ => s
  tileOff s t

/-! ### Training and retrains (R657 to R663) -/

/-- A retrain begins. -/
def startRetrain (s : State) (t : Tile) (recovery : Bool) : State :=
  updTile s t (fun x =>
    { x with link := .retrain, recovery, req := if recovery then x.req else false, defer := if recovery then x.defer else false,
             count := satInc 0xFFFF x.count })

/-- LINK_TRAINED (R658): a request that waited for UP starts, or is deferred when a retrain came before (DEDUCED, log 32). -/
def execLinkTrained (t : Tile) (s : State) : Host.Outcome State Fault Refusal :=
  let x := tileSt s t
  if linkLive s t && x.link == .training && !s.clk.relock1 then
    let u := updTile s t (fun x => { x with link := .up })
    if !x.req then .next u
    else if x.count = 0 then .next (startRetrain u t false)
    else .next (updTile u t (fun x => { x with defer := true }))
  else .next s

/-- BEAT_CRC_ERROR (R657). -/
def execBeatCrcError (t : Tile) (s : State) : Host.Outcome State Fault Refusal :=
  if linkLive s t && (tileSt s t).link == .up then .next (updTile s t (fun x => { x with replays := satInc 0xFF x.replays }))
  else .next s

/-- A write of `TILEn_RETRAIN` (R662, R684); `recent`: less than 10 ms after the end of the previous retrain. -/
def retrainAct (t : Tile) (recent : Bool) (v : Word) : RegAct := fun s =>
  if !bit v 31 || (tileSt s t).req then (s, stOk)
  else if (tileSt s t).link ≠ .up then (updTile s t (fun x => { x with req := true }), stOk)
  else if recent then (updTile s t (fun x => { x with req := true, defer := true }), stOk)
  else (startRetrain s t false, stOk)

/-- TILE_RETRAIN_REQ (R659, R662) (DESIGN CHOICE, log 42). -/
def execTileRetrainReq (f : Fr) (t1 : Bool) (v : Word) (recent : Bool) (s : State) : Host.Outcome State Fault Refusal :=
  .next (wframe f (if t1 then 0xB2 else 0xB1) v (retrainAct (if t1 then .t1 else .t0) recent v) s)

/-- RETRAIN_DEFER_EXPIRY (R662). -/
def execRetrainDeferExpiry (t : Tile) (s : State) : Host.Outcome State Fault Refusal :=
  if linkLive s t && (tileSt s t).defer && (tileSt s t).link == .up then .next (startRetrain s t false) else .next s

/-- A RECOVERY retrain (R659, R673): job transfers in flight fault; one that belongs to no job writes a record (DEDUCED, log 73). -/
def recoverLink (s : State) (t : Tile) : State :=
  let s := tileFaults s (movesTile s t)
  let s := dropTxns s (tileIsl t) cTileFault
  let s := if hostAccess s (fun a => tileOf a == some t) then tileRec s t cTileRecover else s
  let s := match t with
    | .io => failCsi s
    | _ => s
  startRetrain s t true

/-- LINK_RECOVERY (R659, R661). -/
def execLinkRecovery (t : Tile) (k : LinkFail) (recent : Bool) (s : State) : Host.Outcome State Fault Refusal :=
  if !(linkLive s t && (tileSt s t).link == .up) then .next s
  else
    let s := instant s
    match k with
    | .replays => if recent then .next (declareFailed (tileRec s t cTileFlap) t) else .next (recoverLink s t)
    | .laneLock => if recent then .next (declareFailed (tileRec s t cTileFlap) t) else .next (recoverLink s t)

/-- RETRAIN_DONE (R660): a request that waits has 10 ms to wait. -/
def execRetrainDone (t : Tile) (s : State) : Host.Outcome State Fault Refusal :=
  if linkLive s t && (tileSt s t).link == .retrain then
    .next (updTile s t (fun x => { x with link := .up, recovery := false, defer := x.req }))
  else .next s

/-- RETRAIN_TIMEOUT (R660). -/
def execRetrainTimeout (t : Tile) (s : State) : Host.Outcome State Fault Refusal :=
  if linkLive s t && (tileSt s t).link == .retrain then .next (declareFailed (tileRec (instant s) t cTileLink) t) else .next s

/-! ### Tile registers (R683) -/

/-- The link code of a tile. -/
def linkCode (s : State) (t : Tile) : Nat :=
  if !tilePresent s t then 0
  else if pdLevel s (tilePd t) == .off then 1
  else match (tileSt s t).link with
    | .training => 2
    | .up => 3
    | .retrain => 4

/-- `FAILED`: a fused tile that did not answer its probe, or that was declared failed. -/
def tileFailedBit (s : State) (t : Tile) : Bool := tileFused s t && (!tileAnswers s t || (tileSt s t).failed)

/-- State code of a receiver. -/
def csiCode (s : State) (r : Csi) : Nat :=
  let c := csiSt s r
  if !bit c.ctrl 0 then 0 else if c.ulps then 3 else if c.open_.any Option.isSome then 2 else 1

/-- `TILE_STATUS`, `TILEn_RETRAIN`, `IOT_STATUS`. -/
def tileStatus (s : State) : Word :=
  mkWord [(7, 1, b2n (tileFailedBit s .t1)), (4, 3, linkCode s .t1), (3, 1, b2n (tileFailedBit s .t0)), (0, 3, linkCode s .t0)]

def tileRetrain (s : State) (t : Tile) : Word :=
  let x := tileSt s t
  mkWord [(31, 1, b2n x.req), (30, 1, b2n x.defer), (16, 8, x.replays), (0, 16, x.count)]

def iotStatus (s : State) : Word :=
  mkWord [(7, 1, b2n (tileFailedBit s .io)), (4, 3, linkCode s .io), (2, 2, csiCode s .r1), (0, 2, csiCode s .r0)]

/-! ### CSI-2 receivers (R674 to R681) -/

/-- Supported data types (R675). -/
def csiTypes : List Nat := [0x12, 0x1E, 0x22, 0x24, 0x2A, 0x2B, 0x2C, 0x30, 0x31, 0x32, 0x33, 0x34, 0x35, 0x36, 0x37]

/-- A filter's first word may be set valid (R679). -/
def filterOk (s : State) (w0 w1 : Word) : Bool :=
  let d := qd s (bits w0 13 0)
  let dt := bits w0 27 22
  let n := bits w1 31 16 * bits w1 15 0
  d.cls == clsSrc && csiTypes.contains dt && (!bit w0 30 || dt == 0x2B || dt == 0x2C) && decide (1 ≤ bits w1 31 16) &&
    decide (1 ≤ bits w1 15 0) && decide (bits w1 15 0 ≤ 8192) && n % d.item == 0 && decide (n ≤ d.depth * d.item)

/-- A read of a register of a receiver. -/
def csiRead (s : State) (r : Csi) (off : Nat) : Option Word :=
  let c := csiSt s r
  if off = 0 then some c.ctrl
  else if off = 4 then some (mkWord [(24, 8, c.hdrerr), (16, 8, c.crcerr), (8, 8, c.nospace), (0, 8, c.badfrm)])
  else if off = 8 then some c.fstamp
  else if off = 0xC then some (mkWord [(16, 16, c.fnum.toNat), (14, 2, c.qual.toNat), (10, 2, c.filt), (0, 8, c.fseq)])
  else if 0x10 ≤ off ∧ off < 0x30 ∧ off % 4 = 0 then
    some (if off % 8 = 0 then filtW0 c ((off - 0x10) / 8) else filtW1 c ((off - 0x10) / 8))
  else none

/-- A write of `CSI_CTRL` (R679): `LANES` is not written while `EN` = 1. -/
def csiCtrlWrite (r : Csi) (v : Word) : RegAct := fun s =>
  let c := csiSt s r
  if bit c.ctrl 0 && bit v 1 != bit c.ctrl 1 then (s, stAddr)
  else
    let s := if bit v 0 then s else failFrames s r
    (updCsi s r (fun c =>
      let c := { c with ctrl := v &&& 3, ulps := c.ulps && bit v 0 }
      if bit v 0 then { c with hdrerr := 0, crcerr := 0, nospace := 0, badfrm := 0 } else c), stOk)

/-- A write of a register of a receiver. -/
def csiWrite (r : Csi) (off : Nat) (v : Word) : RegAct := fun s =>
  let c := csiSt s r
  if off = 0 then csiCtrlWrite r v s
  else if (csiRead s r off).isNone then (s, stAddr)
  else if off < 0x10 then (s, stOk)
  else
    let f := (off - 0x10) / 8
    if bit c.ctrl 0 then (s, stAddr)
    else if off % 8 = 0 then
      let w := v &&& 0xFFC03FFF
      if bit w 31 && !filterOk s w (filtW1 c f) then (s, stAddr)
      else (updCsi s r (fun c => { c with f0 := upd c.f0 f (fun _ => w) }), stOk)
    else (updCsi s r (fun c => { c with f1 := upd c.f1 f (fun _ => v) }), stOk)

/-- The receiver sees the bus: enabled, not in ULPS, its tile there, its pads released. -/
def csiSees (s : State) (r : Csi) : Bool :=
  let c := csiSt s r
  bit c.ctrl 0 && !c.ulps && linkLive s .io && !s.pwr.pads.getLsbD 5

/-- New frames are dropped: in IDLE, and after AP1 of an entry (R681). -/
def csiShut (s : State) : Bool := !pdOn s 22 || (pastAp1 s).isSome || !islRuns s 24

/-- FS at one filter (R677, R681, R684). A frame in progress while the bridge retrains fails (R673). -/
def frameStart (s : State) (r : Csi) (fnum : BitVec 16) (f : Nat) : State :=
  let s := failFrame s r f
  let c := csiSt s r
  let q := filtQid c f
  let n := filtLines c f * filtBytes c f / (qd s q).item
  if csiShut s || (qd s q).cls != clsSrc || decide (qFree s q < n) then
    updCsi s r (fun c => { c with nospace := satInc 0xFF c.nospace })
  else
    updCsi s r (fun c => { c with open_ := upd c.open_ f (fun _ => some
      { fnum, stamp := now s, lines := 0, bad := (tileSt s .io).link == .retrain, bytes := [], items := n }) })

/-- CSI_FRAME_START (R676, R677). -/
def execCsiFrameStart (r : Csi) (vc : BitVec 2) (fnum : BitVec 16) (s : State) : Host.Outcome State Fault Refusal :=
  if !csiSees s r then .next s
  else
    let s := instant s
    .next (stamped ((filters.filter (fun f => filtVc (csiSt s r) f vc)).foldl (fun t f => frameStart t r fnum f) s))

/-- One group of 5 bytes of RAW10, of 3 bytes of RAW12, as pixels (R678). -/
def raw10 : List Byte → List Nat
  | b0 :: b1 :: b2 :: b3 :: b4 :: r =>
    let l := b4.toNat
    (b0.toNat * 4 + l % 4) :: (b1.toNat * 4 + l / 4 % 4) :: (b2.toNat * 4 + l / 16 % 4) :: (b3.toNat * 4 + l / 64) :: raw10 r
  | _ => []

def raw12 : List Byte → List Nat
  | b0 :: b1 :: b2 :: r => (b0.toNat * 16 + b2.toNat % 16) :: (b1.toNat * 16 + b2.toNat / 16) :: raw12 r
  | _ => []

/-- A line as it is stored. -/
def storedLine (w0 : Word) (bs : List Byte) : List Byte :=
  if !bit w0 30 then bs
  else ((if bits w0 27 22 = 0x2B then raw10 bs else raw12 bs).map (leBytes 2)).flatten

/-- A line of a filter's open frame: written at WP as far as it fills items; a line of another length, or beyond the last
line, makes the frame bad. -/
def frameLine (s : State) (r : Csi) (f : Nat) (bs : List Byte) (crcOk : Bool) : State :=
  let c := csiSt s r
  match openFrame c f with
  | none => s
  | some fr =>
    let line := storedLine (filtW0 c f) bs
    let fits := fr.lines < filtLines c f ∧ line.length = filtBytes c f
    let q := filtQid c f
    let item := (qd s q).item
    let all := fr.bytes ++ line
    let k := if fits then all.length / item else 0
    let s := if (qd s q).cls = clsSrc then pushItems s q (cutItems item k all) else s
    updCsi s r (fun c => { c with open_ := upd c.open_ f (fun _ => some
      { fr with lines := fr.lines + 1, bad := fr.bad || !crcOk || decide (¬fits),
                bytes := if fits then all.drop (k * item) else fr.bytes, items := fr.items - k }) })

/-- CSI_LINE (R675, R676). -/
def csiLineIn (r : Csi) (pk : CsiPacket) (s : State) : State :=
  if !csiSees s r then s
  else if pk.headerTwoBit then updCsi s r (fun c => { c with hdrerr := satInc 0xFF c.hdrerr })
  else if pk.vcx then s
  else
    let c := csiSt s r
    match filters.find? (fun f => filtVc c f pk.vc && bits (filtW0 c f) 27 22 == pk.dt.toNat) with
    | none => s
    | some f =>
      let s := if pk.crcOk then s else updCsi s r (fun c => { c with crcerr := satInc 0xFF c.crcerr })
      frameLine s r f pk.payload pk.crcOk

/-- CSI_LINE (R676). -/
def execCsiLine (r : Csi) (pk : CsiPacket) (s : State) : Host.Outcome State Fault Refusal :=
  if (Instr.csiLine r pk).wf then .next (csiLineIn r pk s) else .fault .illFormed

/-- FE at one filter (R677): the frame is published, or fails. -/
def frameEnd (s : State) (r : Csi) (f : Nat) : State :=
  let c := csiSt s r
  match openFrame c f with
  | none => s
  | some fr =>
    if fr.bad || fr.lines != filtLines c f then failFrame s r f
    else
      updCsi (publish s (filtQid c f)) r (fun c =>
        { c with open_ := upd c.open_ f (fun _ => none), fstamp := BitVec.ofNat 32 fr.stamp.dt, fnum := fr.fnum,
                 qual := fr.stamp.qual, filt := f, fseq := (c.fseq + 1) % 256 })

/-- CSI_FRAME_END (R677). -/
def execCsiFrameEnd (r : Csi) (vc : BitVec 2) (s : State) : Host.Outcome State Fault Refusal :=
  if !csiSees s r then .next s
  else .next ((filters.filter (fun f => filtVc (csiSt s r) f vc)).foldl (fun t f => frameEnd t r f) s)

/-- ULPS_ENTRY (R675). -/
def execUlpsEntry (r : Csi) (s : State) : Host.Outcome State Fault Refusal :=
  if bit (csiSt s r).ctrl 0 && linkLive s .io then .next (updCsi s r (fun c => { c with ulps := true })) else .next s

/-- ULPS_EXIT (R675). -/
def execUlpsExit (r : Csi) (s : State) : Host.Outcome State Fault Refusal :=
  if bit (csiSt s r).ctrl 0 && linkLive s .io then .next (updCsi s r (fun c => { c with ulps := false })) else .next s

/-! ### I3C3 and I3C4 (R682, R683) -/

/-- A read of their registers in the I62 window. -/
def iotRead (s : State) (off : Nat) : Option Word :=
  if off = 0x500 then some s.iotXfer.ctrl
  else if off = 0x504 then some s.iotXfer.data0
  else if off = 0x508 then some s.iotXfer.data1
  else if off = 0x50C then some s.iotCfg
  else none

/-- A write of their registers: a `BUS` other than 0 and 1 is refused. -/
def iotWrite (off : Nat) (v : Word) : RegAct := fun s =>
  let i3c := fun (old w : Nat) => if w % 2 = 1 ∧ w / 2 = 3 then old else w
  if off = 0x500 then ({ s with iotXfer := xferWrite (fun b => decide (1 < b)) 15 v s.iotXfer }, stOk)
  else if off = 0x504 then ({ s with iotXfer := { s.iotXfer with data0 := v } }, stOk)
  else if off = 0x508 then ({ s with iotXfer := { s.iotXfer with data1 := v } }, stOk)
  else if off = 0x50C then
    ({ s with iotCfg := mkWord [(3, 3, i3c (bits s.iotCfg 5 3) (bits v 5 3)), (0, 3, i3c (bits s.iotCfg 2 0) (bits v 2 0))] }, stOk)
  else (s, stAddr)

/-! ### Power -/

/-- The link of a tile whose domain has powered up trains (R658). -/
def tilePowerUp (s : State) (t : Tile) : State := updTile s t (fun x => { x with link := .training, recovery := false })

/-- PD22 has lost power: receivers, the manual-transfer unit and SLP1 are as at reset. -/
def iotPowerOff (s : State) : State :=
  slpPowerOff { s with csis := many 2 .reset, iotXfer := .reset 2, iotCfg := 0x9 } .slp1

end Sys2Proof.Machine
end

