-- ==== Sys2Proof/Machine/Island.lean ====
section
/-! DEFINITION. Islands and domains (01 R31 to R36, 05 R181 to R191, R712, R713): power lost and restored, island resets with their
epoch notices, crossings, the supervisor watchdog, and wipes. -/

namespace Sys2Proof.Machine

open Sys2Proof

/-- Island numbers. -/
def islNums : List Nat := List.range 64

/-- An island changed. -/
def updIsl (s : State) (i : Nat) (f : Isl → Isl) : State := { s with isl := upd s.isl i f }

/-- The islands of a domain. -/
def pdIsls (n : Nat) : List Nat := islNums.filter (fun i => islPd i == n)

/-! ### Memories of a domain -/

/-- The ranges of the address map that a domain's SRAM holds, its end exclusive (01 R39). -/
def pdRam (n : Nat) : List (Nat × Nat) :=
  if n = 4 then [(0x28000000, 0x28080000)]
  else if 10 ≤ n ∧ n ≤ 13 then [(0x18000000 + (n - 10) * 0x40000, 0x18040000 + (n - 10) * 0x40000)]
  else if n = 14 then [(0x10000000, 0x10400000)]
  else if n = 15 then [(0x10400000, 0x10800000)]
  else if n = 17 then [(0x20000000, 0x20200000)]
  else []

/-- The memories that a power-up of the domain wipes (05 R189, R190). -/
def pdWipes (n : Nat) : List WipeMem :=
  if n = 1 then [.hpRules]
  else if n = 4 then [.sce]
  else if n = 6 then [.supRam]
  else if n = 8 then [.qdt]
  else if 10 ≤ n ∧ n ≤ 13 then [.teLs]
  else if n = 14 ∨ n = 15 then [.tsr]
  else if n = 16 then [.scc]
  else if n = 17 then [.sed]
  else if n = 18 then [.slp0]
  else if n = 22 then [.slp1]
  else []

/-- A wipe starts, from the beginning if one was under way. -/
def startWipe (s : State) (m : WipeMem) : State := if s.wiping.contains m then s else { s with wiping := s.wiping ++ [m] }

/-- The domains that a memory of the wipe table lies in. -/
def wipePds : WipeMem → List Nat
  | .tsr => [14, 15]
  | .teLs => [10, 11, 12, 13]
  | .qdt => [8]
  | .scc => [16]
  | .slp0 => [18]
  | .slp1 => [22]
  | .supRam => [6]
  | .sce => [4]
  | .sed => [17]
  | .hpRules => [1]
  | .clay0 => [20]
  | .clay1 => [21]

/-! ### Peer resets (05 R182 to R184, R712) -/

/-- The engine's present command is a COMMIT that waits for the ledger (14 R594). -/
def atCommit (s : State) (l : Lane) : Bool := l.stage == .ready && (cmdAt s (l.base + l.off)).opc == oCOMMIT

/-- A job's engine has a request outstanding to island t: its own array or control island; memory that its present command touches, or that
a write it waits for at a fence goes to; the storage of a queue whose items it moves (11 R472); the queue manager that it waits for or
moves items through; the counters it waits on; the ledger. -/
def requestTo (s : State) (t : Nat) (e : Eng) : Bool :=
  match (engSt s e).cur with
  | none => false
  | some l =>
    let os := curOpds s e
    let en := laneEntry s e l
    let waitsQ := match l.stage with
      | .stallIn _ => true
      | .stallOut _ => true
      | .waitTile _ _ _ => true
      | _ => false
    let range := fun lo hi => fenceOn s e lo hi || (inFlight s e && os.any (fun o =>
      match o.ref with
      | .mem a => (match reach s e a o.span o.wr with
          | some p => meets p o.span lo hi
          | none => false)
      | .queue _ => (match opdQueue en o with
          | some q => (qd s q).storedIn lo hi
          | none => false)
      | _ => false))
    let queued := waitsQ || (inFlight s e && os.any (fun o => (opdQueue en o).isSome))
    let waiting := match l.stage with
      | .waitSc _ _ => true
      | _ => false
    (t == engIsl e) || (arrayIsl e == some t && inFlight s e) ||
      (decide (22 ≤ t) && decide (t ≤ 23) && (inFlight s e || fenceOn s e 0 0xC0000000)) || (t == 24 && queued) || (t == 25 && waiting) ||
      (t == 26 && atCommit s l) ||
      (decide (31 ≤ t) && decide (t ≤ 34) && range (0x18000000 + (t - 31) * 0x40000) (0x18040000 + (t - 31) * 0x40000)) ||
      (decide (35 ≤ t) && decide (t ≤ 50) && range (0x10000000 + (t - 35) * 0x80000) (0x10080000 + (t - 35) * 0x80000)) ||
      (t == 20 && range 0x28000000 0x28080000) || (t == 54 && range 0x20000000 0x20200000) ||
      (t == 60 && range 0x80000000 0xA0000000) || (t == 61 && range 0xA0000000 0xC0000000)

/-- Every request outstanding to island t completes with E_PEER_RESET: those of jobs, as they stand when reset is asserted, are faults of
the jobs (R183, R184) (DEDUCED, log 77). -/
def peerReset (s : State) (t : Nat) : State :=
  dropTxns (faultAll s cPeerReset (hitLanes s (fun e _ => requestTo s t e) (fun _ => none))) t cPeerReset

/-- The island that serves an address of the internal map, outside the island headers (01 R39, R46). -/
def addrIsl (a : Nat) : Option Nat :=
  if a < 0x40000 then some 21
  else if 0x10000000 ≤ a ∧ a < 0x10800000 then some (35 + (a - 0x10000000) / 0x80000)
  else if 0x18000000 ≤ a ∧ a < 0x18100000 then some (31 + (a - 0x18000000) / 0x40000)
  else if 0x20000000 ≤ a ∧ a < 0x20200000 then some 54
  else if 0x28000000 ≤ a ∧ a < 0x28080000 then some 20
  else if 0x30000000 ≤ a ∧ a < 0x30040000 then some 24
  else if 0x40000000 ≤ a ∧ a < 0x40400000 then (if a % 0x10000 < 0x10 then none else some ((a - 0x40000000) / 0x10000))
  else if 0x80000000 ≤ a ∧ a < 0xA0000000 then some 60
  else if 0xA0000000 ≤ a ∧ a < 0xC0000000 then some 61
  else none

/-- Window accesses, a debug access and a sediment prefetch under way to an address that a test accepts complete with the
peer-reset status (01 R61, 10 R413). -/
def markPeer (s : State) (p : Nat → Bool) : State :=
  let s := updWin s (fun w =>
    { w with ppeer := w.ppeer || (w.pbusy && w.posted.isEmpty && p w.addr.toNat),
             posted := w.posted.map (fun x => if p x.addr.toNat then { x with peerReset := true } else x) })
  let s := if s.sed.pbusy && p 0x20000000 then updSed s (fun d => { d with ppeer := true }) else s
  match s.jtag.acc with
  | some (_, a, _) => if p a.toNat then { s with jtag := { s.jtag with acc := none, accData := 0, accStat := BitVec.ofNat 3 stPeer } } else s
  | none => s

/-! ### What an island reset does to its unit -/

/-- The engine whose control island this is. -/
def islEng (t : Nat) : Option Eng := loamEngs.find? (fun e => engIsl e == t)

/-- A key slot's fuses changed; `enc` says which kind. -/
def updKey (s : State) (enc : Bool) (i : Nat) (f : KeySlot → KeySlot) : State :=
  { s with fuses := if enc then { s.fuses with enc := upd s.fuses.enc i f } else { s.fuses with sig := upd s.fuses.sig i f } }

/-- The bits of a key, or record, whose programming was cut short: some of them, so that the slot is not empty (DESIGN CHOICE, log 35). -/
def partBits (k : BitVec 512) (free : Nat) : BitVec 512 := if k &&& Config.keyMask free = 0 then k else k &&& Config.keyMask free

/-- A keyprog cut short leaves partly blown bits without VALID (16 R655). -/
def keyprogLost (s : State) : State :=
  match s.lc.op with
  | .keyprog enc i good k =>
    let s := if good then updKey { s with freeK := s.freeK + 1 } enc i (fun x => { x with bits := partBits k s.freeK }) else s
    updLc s (fun l => { l with op := .none, result := 3 })
  | _ => s

/-- The debug unit as its domain's power-up or an island reset leaves it (16 R650). -/
def debugReset (s : State) : State :=
  updLc { s with jtag := { Jtag.reset with trst := s.jtag.trst, scanK := s.jtag.scanK } }
    (fun l => { l with dbgEn := life s == .blank, dbgExtest := false, dbgDeny := 0 })

/-- The registers of a unit's logic return to their reset values; counts since power-on reset, what lies in SRAM and the open streams, which
only the events of 11 R458 close, stay (05 R176, R187) (DEDUCED, log 77). -/
def resetRegs (s : State) (t : Nat) : State :=
  if t = 24 then
    updQm s (fun m => { m with resResult := 0, resQid := 0, sstall := 0x0A, sstallValid := false, sstallQid := 0, reported := [], dropLast := 0 })
  else if t = 26 then updLdg s (fun l => { l with lastRestarts := 0, lastStatus := 0, lastJob := 0 })
  else if t = 51 then { s with sats := many 64 ⟨0, 0, 0⟩, satHit := 0 }
  else if t = 58 then
    updLc (updCap s (fun c => { c with addr := 0, len := 0, plTsr := 0, plLs := 0, plClay0 := 0, plClay1 := 0, plIds := 0, plScc := 0 }))
      (fun l => { l with ksrc := 0 })
  else if t = 62 then { s with csis := many 2 .reset, iotXfer := .reset 2, iotCfg := 0x9 }
  else if t = 63 then debugReset s
  else s

/-- The effect on the unit of island t when reset is asserted (05 R186, R187 and the collision tables of the chapters). -/
def resetUnit (s : State) (t : Nat) : State :=
  if 3 ≤ t ∧ t ≤ 18 then chanReset s (t - 3)
  else if t = 19 then snsReset s
  else if t = 20 then updEng (updSce s (fun c => { c with busy := false })) .sce (fun g => { g with cur := none })
  else if t = 21 then
    let s := abortInstall s 2
    match s.pwr.seq with
    | .exit cp _ _ => if 2 ≤ cp ∧ cp < 5 then updPwr s (fun p => { p with repeatX2 := true }) else s
    | .entry step _ _ _ => if step = 3 then updPwr s (fun p => { p with supSaved := false }) else s
    | _ => s
  else if t = 55 ∨ t = 56 then (if (slipSt s .slp0).en then linkDown s .slp0 else s)
  else if t = 58 then resetRegs (keyprogLost (abortInstall s 2)) 58
  else if t = 62 then
    let s := if (slipSt s .slp1).en then linkDown s .slp1 else s
    resetRegs (failCsi s) 62
  else
    let s := resetRegs s t
    match islEng t with
    | some e => updEng s e (fun g => { g with cur := none, opc := 0, job := 0, pc := 0 })
    | none => s

/-- Steps 1 to 3 of R182: reset asserted, the epoch advances, every request outstanding to the island completes (DESIGN CHOICE, log 76). -/
def assertIsl (s : State) (t : Nat) : State :=
  let s := markPeer (peerReset s t) (fun a => addrIsl a == some t)
  let s := resetUnit s t
  let s := { s with outstanding := s.outstanding.filter (fun x => x.src != t) }
  updClk (updIsl s t (fun i => { i with epoch := i.epoch + 1, held := true })) (fun c => { c with islBusy := c.islBusy ++ [t] })

/-- Step 5 of R182: release. A tile link trains again (17 R684); an idle engine takes the next lane dispatched to it. -/
def releaseIsl (s : State) (t : Nat) : State :=
  let u := updClk (updIsl s t (fun i => { i with held := false, resets := satInc 0xFFFF i.resets }))
    (fun c => { c with islBusy := c.islBusy.filter (· != t) })
  let u := if t = 60 then tilePowerUp u .t0 else if t = 61 then tilePowerUp u .t1 else if t = 62 then tilePowerUp u .io else u
  let u := match islEng t with
    | some e => nextLane u e
    | none => u
  noteReady s u

/-- The request is refused (R181, R211): one of the four islands, an absent one, a domain not On, a reset in progress. -/
def islRefused (s : State) (t : Nat) : Bool :=
  t == 0 || t == 1 || t == 2 || t == 57 || islAbsent s t || !pdOn s (islPd t) || !s.clk.islBusy.isEmpty || inWarm s ||
    (islSt s t).held

/-- A window write of `ISL_RST` (R181, R208). -/
def islRstAct (v : Word) : RegAct := fun s =>
  if bits v 31 16 ≠ 0x1A5D then (s, stOk)
  else if islRefused s (bits v 5 0) then (updClk s (fun c => { c with islRefused := true }), stOk)
  else (assertIsl (updClk s (fun c => { c with islRefused := false })) (bits v 5 0), stOk)

/-- ISLAND_RESET_RELEASE (R182): the island longest in reset is released, after 16 of its own clock cycles: none pass while PLL0
relocks (04 R154). -/
def execIslandResetRelease (s : State) : Host.Outcome State Fault Refusal :=
  match s.clk.islBusy with
  | [] => .next s
  | t :: _ => if pll0Fed t && s.clk.relock0 then .next s else .next (releaseIsl s t)

/-- SUPERVISOR_WATCHDOG (01 R31, R59): I21 is reset and a fault record written. The watchdog is serviced by running firmware
only, so it watches while PD5 is on. -/
def execSupervisorWatchdog (s : State) : Host.Outcome State Fault Refusal :=
  if pdOn s 5 && islRuns s 21 && !s.boot.por && !inWarm s then
    .next (deviceFault (assertIsl (instant s) 21) 0x26 0 1 15)
  else .next s

/-! ### Crossings (01 R33 to R36, 05 R712, R713) -/

/-- Fields of a tag (01, Transaction tag). -/
def tagSrc (t : BitVec 24) : Nat := bits t 23 18
def tagSrcEp (t : BitVec 24) : Nat := bits t 17 14
def tagDst (t : BitVec 24) : Nat := bits t 13 8
def tagDstEp (t : BitVec 24) : Nat := bits t 7 4

/-- The tag's epochs are those of its islands: the receiver has recorded every epoch notice. -/
def tagFresh (s : State) (t : BitVec 24) : Bool :=
  tagDstEp t == (islSt s (tagDst t)).epoch.toNat && tagSrcEp t == (islSt s (tagSrc t)).epoch.toNat

/-- CROSSING: to a domain that is off the transaction is dropped, uncounted, and a job's request is a fault of the job; a stale
one is acknowledged, dropped and counted; one with present epochs waits while its target is held in reset (R713); else a
request stands outstanding and a reply ends its request. -/
def execCrossing (tag : BitVec 24) (reply : Bool) (entry : Option Nat) (s : State) : Host.Outcome State Fault Refusal :=
  let d := tagDst tag
  let x : Txn := ⟨tagSrc tag, d, BitVec.ofNat 4 (bits tag 3 0), entry⟩
  if pdLevel s (islPd d) == .off || islAbsent s d then
    (match reply, entry with
     | false, some i =>
       let s := instant s
       .next (jobFault s i (jobRec s i cPeerReset 0 0 d 0xF none) false)
     | _, _ => .next s)
  else if !tagFresh s tag then .next (updIsl s d (fun i => { i with stale := satInc 0xFFFF i.stale }))
  else if (islSt s d).held then .next s
  else if reply then
    .next { s with outstanding := dropFirst (fun y => y.src == d && y.dst == x.src && y.txn == x.txn) s.outstanding }
  else .next { s with outstanding := s.outstanding ++ [x] }

/-! ### Power lost and restored (04 R122 to R125, 05 R188, R712) -/

/-- What a unit loses with its domain. Counts since power-on reset stay (DEDUCED, log 75). -/
def loseUnit (s : State) (n : Nat) : State :=
  if n = 1 then hpPowerOff s
  else if n = 2 then snsPowerOff s
  else if n = 3 ∨ n = 4 then updEng (scePowerOff s) .sce (fun g => { g with cur := none, opc := 0, job := 0, pc := 0 })
  else if n = 5 then capPowerOff (updLdg s (fun l => { l with service := [] })) 5
  else if n = 6 then updPwr (updQm s (fun m => { m with evq := [], evPend := [] })) (fun p => { p with supEcc := false, supSaved := false })
  else if n = 7 then
    updQm s (fun m => { Qm.reset with qdt := m.qdt, dropCnt := m.dropCnt, evq := m.evq, evPend := m.evPend, evK := m.evK, runs := m.runs, checkpoint := m.checkpoint })
  else if n = 8 then clearEcc (updQm s (fun m => { m with qdt := [], streams := [], reported := [], runs := [], checkpoint := false })) 0x30000000 0x30040000
  else if n = 9 then
    updLdg { s with scs := [] } (fun l => { Ldg.reset with commits := l.commits, rejects := l.rejects, fails := l.fails })
  else if n = 16 then
    let s := { sccZero s 0 0x10000 with sats := many 64 ⟨0, 0, 0⟩, satHit := 0 }
    [Eng.su, .dm0, .dm1].foldl (fun t e => updEng t e (fun g => { EngSt.reset with cmds := g.cmds, faults := g.faults })) s
  else if 10 ≤ n ∧ n ≤ 13 then updEng s (teOf (n - 10)) (fun g => { EngSt.reset with cmds := g.cmds, faults := g.faults })
  else if n = 17 then updSed s (fun _ => Sed.reset)
  else if n = 18 then slpPowerOff s .slp0
  else if n = 19 then keyprogLost (capPowerOff (updLc s (fun l => { l with ksrc := 0 })) 19)
  else if n = 22 then iotPowerOff s
  else if n = 23 then
    debugReset s
  else s

/-- A domain's level changed. -/
def setPd (s : State) (n : Nat) (l : PdLevel) : State := updPwr s (fun p => { p with pd := upd p.pd n (fun _ => l) })

/-- A domain is switched off: a notice to every linked island (window and debug accesses are left to R44: they find the domain off, R712), its SRAM and its unit's state lost, a wipe under way stopped, a
model slot whose image lay there empty. -/
def pdOff (s : State) (n : Nat) : State :=
  if pdLevel s n == .off then s
  else
    let s := (pdIsls n).foldl peerReset s
    let s := { s with outstanding := s.outstanding.filter (fun x => islPd x.src != n) }
    let s := (pdRam n).foldl (fun t r => zeroRange (slotsLost t r.1 r.2) r.1 r.2) s
    let s := if n = 20 then loseClay (slotsLost s 0x80000000 0xA0000000) 0x80000000 0xA0000000
      else if n = 21 then loseClay (slotsLost s 0xA0000000 0xC0000000) 0xA0000000 0xC0000000 else s
    let s := loseUnit s n
    let s := setPd s n .off
    let s := { s with wiping := s.wiping.filter (fun m => (wipePds m).any (fun k => pdPowered s k || pdLevel s k == .ret)) }
    updClk s (fun c => { c with islBusy := c.islBusy.filter (fun i => islPd i != n) })

/-- What a unit starts with when its domain powers up. -/
def wakeUnit (s : State) (n : Nat) : State :=
  if n = 1 then hpPowerUp s
  else if n = 2 then sb1Detect s
  else if n = 17 then sedWipe s
  else if n = 20 then tilePowerUp s .t0
  else if n = 21 then tilePowerUp s .t1
  else if n = 22 then tilePowerUp s .io
  else s

/-- A domain powers up: from Off, the epoch of each of its islands advances and its SRAM is wiped (05 R188, R190). The power-up
that belongs to a power-on reset leaves the epochs at 0x0 (05 R176, R188), DEDUCED (log 45). After an HRC failure I2 stays held in
reset until the next power-on reset (R171). A domain that the part never powers
stays off. -/
def pdOnAgain (s : State) (n : Nat) : State :=
  if pdAbsent s n then s
  else if pdLevel s n == .off then
    let s := (pdIsls n).foldl (fun t i => updIsl t i (fun x => { x with epoch := if s.pwr.porUp then x.epoch else x.epoch + 1, held := i == 2 && s.clk.hrcFail })) s
    let s := (pdWipes n).foldl startWipe (setPd s n .on)
    wakeUnit s n
  else setPd s n .on

/-- A domain brought to a level. -/
def pdTo (s : State) (n : Nat) (l : PdLevel) : State :=
  match l with
  | .off => pdOff s n
  | .on => pdOnAgain s n
  | l => if pdLevel s n == .off then s else setPd s n l

/-- Domain numbers. -/
def pdNums : List Nat := List.range 24

/-- Every domain brought to its level in a stable state. -/
def toLevels (s : State) (st : PState) : State := pdNums.foldl (fun t n => pdTo t n (levelIn t st n)) s

/-! ### Wipes (05 R189, R190) -/

/-- Every word of a memory written with zero data and valid check bits. -/
def wipeMem (s : State) (m : WipeMem) : State :=
  match m with
  | .tsr => zeroRange s 0x10000000 0x10800000
  | .teLs => zeroRange s 0x18000000 0x18100000
  | .qdt => clearEcc (updQm s (fun q => { q with qdt := [], runs := [] })) 0x30000000 0x30040000
  | .scc => sccZero s 0 0x10000
  | .slp0 => updSlip s .slp0 (fun x => { x with replay := [], resend := 0 })
  | .slp1 => updSlip s .slp1 (fun x => { x with replay := [], resend := 0 })
  | .supRam => updPwr (updQm s (fun q => { q with evq := [] })) (fun p => { p with supEcc := false })
  | .sce => updSce (zeroRange s 0x28000000 0x28080000) (fun c => { c with loaded := false })
  | .sed => sedWipe s
  | .hpRules => hpWipe s
  | .clay0 => wipeClay s 0x80000000 0xA0000000
  | .clay1 => wipeClay s 0xA0000000 0xC0000000

/-- The island of a memory (16, LC_WIPE). -/
def wipeIsl : WipeMem → Nat
  | .tsr => 35
  | .teLs => 31
  | .qdt => 24
  | .scc => 51
  | .slp0 => 55
  | .slp1 => 62
  | .supRam => 21
  | .sce => 20
  | .sed => 54
  | .hpRules => 2
  | .clay0 => 60
  | .clay1 => 61

/-- Every memory that is wiped in a life-cycle transition (16 R637 T2): on-die SRAM that this part powers, Hardpan rule memory,
clay memory of the tiles present. -/
def allWipes (s : State) : List WipeMem :=
  [.tsr, .teLs, .qdt, .scc, .slp0, .supRam, .sce, .sed, .hpRules] ++ (if tilePresent s .io then [.slp1] else []) ++
    (if tilePresent s .t0 then [.clay0] else []) ++ (if tilePresent s .t1 then [.clay1] else [])

end Sys2Proof.Machine
end

