-- ==== Sys2Proof/Machine/Resets.lean ====
section
/-! DEFINITION. Power-on reset and warm reset (02 R76 to R91, 05 R176 to R180, R716, 06 R178, 16 R630), hand-over of the reset
cause, PMIC faults (04 R163). -/

namespace Sys2Proof.Machine

open Sys2Proof

/-! ### Reset causes (05 R208) -/

def rcSupply : Byte := 0x01
def rcPin : Byte := 0x02
def rcBor : Byte := 0x03
def rcClk : Byte := 0x04
def rcWarmHost : Byte := 0x10
def rcPmic : Byte := 0x11
def rcLife : Byte := 0x12
def rcRetEcc : Byte := 0x13
def rcPll : Byte := 0x14

def PorCause.code : PorCause → Byte
  | .supply => rcSupply
  | .pin => rcPin
  | .bor => rcBor
  | .clk => rcClk

/-! ### Power-on reset -/

/-- The log as a power-on reset leaves it: entry 0 the COLD_START entry that records the input chosen (03 R116). -/
def coldLog (a b sel : Bool) : List LogEntry := ⟨⟨0, 0b11⟩, 0, false, 1, a, b, sel⟩ :: many 7 .empty

/-- The selector chooses an input by the cold-start rule (03 R101): VAON_A when present, else VAON_B, else none yet. A power-on reset
with both inputs present, as RESET_N or a clock failure brings it, chooses VAON_A even where VAON_B was selected: the rule orders two
inputs by their rise, and neither rises then (DESIGN CHOICE, log 86). -/
def coldStart (x : Sel) : Sel :=
  let chosen := x.aPres || x.bPres
  let sel := !x.aPres && x.bPres
  { Sel.reset with aPres := x.aPres, bPres := x.bPres, aQual := false, bQual := false, chosen, sel,
                   count := b2n chosen, head := b2n chosen, log := if chosen then coldLog x.aPres x.bPres sel else many 8 .empty }

/-- The life-cycle fuses that a target state needs blown, in thermometer order; 3 stands for `KEYKILL` (16 R630, R637 T3). -/
def lcBits (tgt : BitVec 2) : List Nat := if tgt = 1 then [0] else if tgt = 2 then [0, 1] else if tgt = 3 then [0, 1, 2, 3] else []

/-- One of those fuses is intact. -/
def lcIntact (f : Fuses) (i : Nat) : Bool := if i = 3 then !f.keykill else !f.lcf.getLsbD i

/-- One of those fuses blown. -/
def lcBlow (f : Fuses) (i : Nat) : Fuses := if i = 3 then { f with keykill := true } else { f with lcf := f.lcf ||| BitVec.ofNat 3 (2 ^ i) }

/-- Fuse bits that a swap, a transition, a key or a patch record under way had already blown when power failed stay blown
(15 R629, 16 R655; DESIGN CHOICE, log 35). -/
def partFuses (s : State) : Fuses :=
  let k := Config.fusesDone s.freeK
  let s := keyprogLost s
  let f := match s.cap.swap with
    | some (m, b) =>
      let lo := rollbackCount s
      { s.fuses with rollback := blowTo s.fuses.rollback (lo + k % ((slotSt s m b).arb - lo + 1)) }
    | none => s.fuses
  let f := match s.jtag.patch with
    | some (i, r) => { f with patch := upd f.patch i (fun x => { x with bits := (partBits (r.setWidth 512) s.freeK).setWidth 96 }) }
    | none => f
  match s.lc.op with
  | .blowing tgt =>
    let todo := (lcBits tgt).filter (lcIntact f)
    (todo.take (k % (todo.length + 1))).foldl lcBlow f
  | _ => f

/-- Power-on reset is asserted: everything but the fuses and the comparators of the selector is as at reset, every epoch 0,
device time lost (05 R176, R188, R203). -/
def powerOn (s : State) (c : PorCause) (pr : Probe) : State :=
  { State.reset with
    fuses := partFuses s, sel := coldStart s.sel,
    boot := { Boot.reset with por := true, probe := pr, lcNow := (partFuses s).lcf, cause := PorCause.code c,
                              pulses := s.boot.pulses },
    clk := { Clk.reset with slowLrc := true },
    tim := { Tim.reset with stampK := s.tim.stampK }, qm := { Qm.reset with evK := s.qm.evK },
    jtag := { Jtag.reset with trst := s.jtag.trst, scanK := s.jtag.scanK }, clayK := s.clayK + 1, freeK := s.freeK + 2,
    pwr := { Pwr.reset with pwrReq := false, awaitPg := false, pwrGood := s.pwr.pwrGood },
    lc := { Lc.reset with dbgEn := (partFuses s).lcf == 0 },
    win := { Win.reset with pbusy := false },
    pending := s.pending }

/-- POWER_ON_RESET (05 R176): a supply rise, or another cause. -/
def execPowerOnReset (c : PorCause) (pr : Probe) (s : State) : Host.Outcome State Fault Refusal := .next (powerOn s c pr)

/-- RESET_N_LOW (02 R80, 18 R691, R709): up to 1 us it is ignored, from 10 us on it is taken, between either happens (DESIGN CHOICE, log 3). -/
def execResetNLow (w : PulseWidth) (pr : Probe) (s : State) : Host.Outcome State Fault Refusal :=
  let t := { s with boot := { s.boot with pulses := s.boot.pulses + 1 } }
  match w with
  | .upTo1us => .next s
  | .between => .next (if Config.resetPulseTaken s.boot.pulses then powerOn t .pin pr else t)
  | .atLeast10us => .next (powerOn s .pin pr)

/-- BROWN_OUT (03 R110): VAON_OUT falls below V_BOR. No input is present until one rises again. -/
def execBrownOut (pr : Probe) (s : State) : Host.Outcome State Fault Refusal :=
  .next (powerOn { s with sel := { s.sel with aPres := false, bPres := false } } .bor pr)

/-- FIO_FAIL (05 R171). -/
def execFioFail (pr : Probe) (s : State) : Host.Outcome State Fault Refusal := if s.clk.fioRun && !s.boot.por then .next (powerOn s .clk pr) else .next s

/-- LRC_FAIL (05 R171): the LRC is checked while FIO runs. -/
def execLrcFail (pr : Probe) (s : State) : Host.Outcome State Fault Refusal := if s.clk.fioRun && !s.boot.por then .next (powerOn s .clk pr) else .next s

/-- The records that power-on writes: an invalid life-cycle pattern (16 R630), tiles that failed their probe (00 R11). -/
def powerOnRecords (s : State) : State :=
  let s := if s.fuses.lcf = 0 ∨ s.fuses.lcf = 1 ∨ s.fuses.lcf = 3 ∨ s.fuses.lcf = 7 then s
    else deviceFault s 0x41 (s.fuses.lcf.setWidth 8) 58 15
  [Tile.t0, .t1, .io].foldl (fun t x => if tileFused t x && !tileAnswers t x then tileRec t x cTileProbe else t) s

/-- POR_RELEASE (02 R80, R82, R83, R87): the straps and TEST_EN are latched, the power-up begins (04 R717). It comes once an
input supplies VAON_OUT. In manufacturing test mode PD23 alone is powered, once PWR_GOOD is high, at once where it is high already
(16 R633). -/
def execPorRelease (lv : StrapLevels) (s : State) : Host.Outcome State Fault Refusal :=
  if !s.boot.por || !s.sel.chosen then .next s
  else
    let te := lv.testEn && life s == .blank
    let b := { s.boot with por := false, mfg := te, strapCp := lv.cp, strapAddr := lv.addr, strapHpdef := lv.hpdef, testEn := te,
                           strapPulls := true }
    let pg := s.pwr.pwrGood
    let s := { s with boot := b, pwr := { Pwr.reset with pwrGood := pg, awaitPg := !pg }, win := Win.reset,
                      clk := { s.clk with slowLrc := !b.probe.xt32, xt32Absent := !b.probe.xt32 } }
    let s := powerOnRecords s
    .next (if te && pg then pdOnAgain s 23 else s)

/-- STRAP_PULL_DISABLE (02 R76). -/
def execStrapPullDisable (s : State) : Host.Outcome State Fault Refusal :=
  if s.boot.por then .next s else .next { s with boot := { s.boot with strapPulls := false } }

/-! ### Warm reset -/

/-- Control-port registers at their reset values; counts since power-on reset stay (05 R178). -/
def cpWarm (c : Cp) : Cp := { Cp.reset with errCmd := c.errCmd, errTrunc := c.errTrunc, errCrc := c.errCrc }

/-- Slip, engines, queues, counters, ledger, loader, front end, classifier: as at reset but for counts since power-on reset;
memories keep their bytes (05 R190). Q16383 lies in PD8 and PD6, which are kept (05 R176); the queues of installed images go with the
images (15 R624). -/
def unitsWarm (s : State) : State :=
  let s := slpPowerOff (slpPowerOff s .slp0) .slp1
  let s := snsWarm s
  let s := updEng (updSce s (fun _ => Sce.reset)) .sce (fun g => g)
  let s := { s with engs := s.engs.map (fun g => { EngSt.reset with cmds := g.cmds, faults := g.faults }),
                    sats := many 64 ⟨0, 0, 0⟩, satHit := 0, scs := [], iotXfer := .reset 2, iotCfg := 0x9, csis := many 2 .reset }
  let s := updQm s (fun m => { Qm.reset with qdt := m.qdt.filter (fun x => x.1 == 16383), evq := m.evq, dropCnt := m.dropCnt, evK := m.evK })
  let s := updLdg s (fun l => { Ldg.reset with commits := l.commits, rejects := l.rejects, fails := l.fails })
  let s := { capReset s with jtag := { Jtag.reset with trst := s.jtag.trst, scanK := s.jtag.scanK } }
  sedDiscard s

/-- Life-cycle and debug registers (05 R178, 16 R654). An operation under way other than the transition itself is lost; the
key slot that a KEYPROG was writing keeps its partly blown bits, as when I58 is reset (16 R655). -/
def lcWarm (s : State) : State :=
  let s := keyprogLost s
  let l := s.lc
  let op := match l.op with
    | .warm ok => .warm ok
    | _ => .none
  let keep := match l.op with
    | .warm _ => true
    | _ => false
  { s with lc := { Lc.reset with op, result := if keep then l.result else 0, cas := if keep then l.cas else 0, dbgEn := life s == .blank } }

/-- Registers of the power group (05 R178): counts, what records since power-on reset, and the sequencer's own state stay.
`PAD_RELEASE` takes its reset value, so no pad stays latched (log 95). PWR_GOOD stays ignored until the next wait (04 R161) where a
down script had begun (log 94). -/
def pwrWarm (p : Pwr) : Pwr :=
  { p with wakeEn := 0b011001, wakeSrc := 0, opCur := 0, opTgt := 0, opStage := .none, script := none, scriptRan := false,
           woken := false, repeatX2 := false, supSaved := false, admission := false, supRdy := false, deferred := none,
           porUp := false, sedret := false, pads := 0 }

/-- A warm reset starts (05 R176, R179, R210, R716): every island but I0, I1 and I2 is held in reset, its epoch advanced; every
uncommitted job is discarded (01 R56); `RST_CAUSE` is written. Nothing happens in OFF, where no logic runs (DEDUCED, log 69). -/
def startWarm (s : State) (cause : Byte) : State :=
  if inOff s || s.boot.por then s
  else
    let pmic := cause == rcPmic || (inWarm s && s.pwr.warmPmic)
    let s := loamEngs.foldl flushLane (lcWarm s)
    let s := unitsWarm s
    let s := { s with cp := cpWarm s.cp, win := { Win.reset with pbusy := false },
                      db := { Db.reset with rejCnt := s.db.rejCnt }, outstanding := [],
                      tiles := s.tiles.map (fun t => { t with req := false, defer := false }),
                      isl := s.isl.zipIdx.map (fun x =>
                        if x.2 ≤ 2 || islAbsent s x.2 then x.1 else { x.1 with epoch := x.1.epoch + 1, held := true }),
                      boot := { s.boot with cause, warmCnt := satInc 0xFF s.boot.warmCnt } }
    let s := updPwr s (fun p =>
      { pwrWarm p with seq := .warm 0, tgt := if pmic then .hibernate else .run, warmPmic := pmic })
    let s := updClk s (fun c => { c with islBusy := [], relock0 := false, relock1 := false })
    let s := if cause == rcPmic || cause == rcRetEcc || pmic then
        startWipe (startWipe (updPwr s (fun p => { p with supEcc := false })) .supRam) .qdt else s
    if pmic then updPwr s (fun p => { p with awaitPg := false, pwrReq := false })
    else match s.pwr.st with
      | .watch => startWatchUp s
      | .hibernate => waitPg (updPwr s (fun p => { p with pwrReq := true }))
      | _ => s

/-- XT24 and its measurement stop (DEDUCED, log 77). -/
def stopXt24 (c : Clk) : Clk := { c with xt24Run := false, meas := none }

/-- A PMIC fault: its record, `PMIC_FAULT`, a warm reset with cause PMIC_FAIL (04 R163). During the power-up that follows
power-on reset a PWR_GOOD timeout leaves the device in HIBERNATE instead, its domains at the levels of that state (R164). -/
def pmicFault (s : State) (cas : Byte) : State :=
  let s := updPwr (deviceFault (instant s) 0x27 cas 1 15) (fun p => { p with pmicFault := true })
  if s.pwr.porUp && cas == 0 then
    let s := updPwr s (fun p =>
      { p with st := .hibernate, tgt := .hibernate, seq := .stable, result := 4, pwrReq := false, awaitPg := false, porUp := false })
    raiseInt (updClk (toLevels s .hibernate) stopXt24) intPwr
  else startWarm s rcPmic

/-- RST_CTRL (05 R180): the key and WARM. -/
def rstCtrlAct (v : Word) : RegAct := fun s =>
  if bits v 31 16 = 0x7A3C ∧ bit v 0 = true then (startWarm s rcWarmHost, stOk) else (s, stOk)

/-- `RST_CAUSE`. -/
def rstCause (s : State) : Word := mkWord [(8, 8, s.boot.cause.toNat), (0, 8, s.boot.warmCnt)]

end Sys2Proof.Machine
end

