-- ==== Sys2Proof/Machine/Clock.lean ====
section
/-! DEFINITION. Clock sources and their monitors (05 R167 to R175, R714), the slow clock's ticks. -/

namespace Sys2Proof.Machine

open Sys2Proof

/-- The always-on logic runs: not in power-on reset, not in OFF (04 R123). -/
def aonRuns (s : State) : Bool := !s.boot.por && !inOff s

/-- Fault codes of the monitors (14 R586). -/
def cXt32 : Byte := 0x22
def cXt24 : Byte := 0x23
def cPll : Byte := 0x24
def cHrc : Byte := 0x25

/-- The record of a clock failure: AON control raises it. -/
def clkRec (s : State) (code cas : Byte) : State := deviceFault (instant s) code cas 1 15

/-- n slow edges of one length. -/
def slowEdges (s : State) (t : Tick) (ppm : Nat) : Nat → State
  | 0 => s
  | n + 1 => slowEdges (slowEdge s t ppm) t ppm n

/-- SLOW_TICK (05 R193, R201): an edge of the slow clock. -/
def execSlowTick (s : State) : Host.Outcome State Fault Refusal :=
  if aonRuns s then .next (slowEdge s (tickNow s) (errPpm s)) else .next s

/-- XT32_FAIL (05 R171, R172): I0 switches to the LRC; DT gains the interval since the last XT32 edge as the LRC measured it
(DEDUCED, log 77). -/
def execXt32Fail (freq : Bool) (periods : Nat) (s : State) : Host.Outcome State Fault Refusal :=
  if !aonRuns s || s.clk.slowLrc then .next s
  else
    let s := updClk s (fun c => { c with slowLrc := true, xt32Fail := true, meas := none })
    let s := slowEdges s .nominal 31000 periods
    .next (clkRec (updTim s (fun t => { t with uncertain := true })) cXt32 (BitVec.ofNat 8 (b2n freq)))

/-- XT32_RETURN (05 R173): I0 returns to XT32 at an edge, which advances DT by 32 units. UNCERTAIN stays. -/
def execXt32Return (s : State) : Host.Outcome State Fault Refusal :=
  if !aonRuns s || !s.clk.slowLrc then .next s
  else
    let s := updClk s (fun c => { c with slowLrc := false, meas := none })
    .next (slowEdge s .xt (errPpm s))

/-- LRC_MEASURE_WINDOW (05 R193): the tick length C x 2^20 / (24,000,000 x 1,024), to the nearest 2^-16 unit, ties to even. -/
def execLrcMeasureWindow (count : Nat) (s : State) : Host.Outcome State Fault Refusal :=
  if !aonRuns s || !s.clk.slowLrc || !s.clk.xt24Run then .next s
  else .next (updClk s (fun c => { c with meas := some (divEven ((count * 2 ^ 36 : Nat) : Int) (24000000 * 1024)).toNat }))

/-- The PLLs run: RUN and IDLE, held locked (05 R167). -/
def pllsRun (s : State) : Bool := pdPowered s 7 && !s.pwr.e4Stopped

/-- XT24_FAIL (05 R171): PLL0 and PLL1 relock to FIO, I59 uses FIO. -/
def execXt24Fail (freq : Bool) (s : State) : Host.Outcome State Fault Refusal :=
  if !aonRuns s || !s.clk.xt24Run then .next s
  else
    let run := pllsRun s
    let s := askFio (updClk s (fun c => { stopXt24 c with xt24Fail := true, pllFio := true, relock0 := c.relock0 || run, relock1 := c.relock1 || run }))
    .next (clkRec s cXt24 (BitVec.ofNat 8 (b2n freq)))

/-- PLL_LOCK_LOSS (05 R171): the PLL relocks; a second loss of the same PLL within 1 ms of its first is a warm reset. -/
def execPllLockLoss (pll1 within1ms : Bool) (s : State) : Host.Outcome State Fault Refusal :=
  if !aonRuns s || !pllsRun s then .next s
  else
    let again := within1ms && (if pll1 then s.clk.lost1 else s.clk.lost0)
    let s := clkRec s cPll (BitVec.ofNat 8 (b2n pll1))
    if again then .next (startWarm (updClk s (fun c => { c with lost0 := false, lost1 := false })) rcPll)
    else .next (updClk s (fun c =>
      if pll1 then { c with lost1 := true, relock1 := true } else { c with lost0 := true, relock0 := true }))

/-- HRC_FAIL (05 R171, 09 R380): keepers hold both outputs at halt; I2 is held in reset until the next power-on reset. -/
def execHrcFail (freq : Bool) (s : State) : Host.Outcome State Fault Refusal :=
  if !aonRuns s || !pdOn s 1 || s.clk.hrcFail then .next s
  else .next (clkRec (updIsl (updClk s (fun c => { c with hrcFail := true })) 2 (fun i => { i with held := true })) cHrc (BitVec.ofNat 8 (b2n freq)))

/-- The island that FIO feeds (05 R167): I1, I3 to I20, I54, I58, I63. -/
def fioFed (t : Nat) : Bool := t == 1 || (decide (3 ≤ t) && decide (t ≤ 20)) || t == 54 || t == 58 || t == 63

/-- Work is pending in an island that FIO feeds (05 R170): a transition on the sequencer, an inference, a sample waiting or in transfer,
a manual transfer, a sediment prefetch, an install, a swap, a life-cycle command, a debug access or a patch record, a wipe at FIO, an
island reset, a window access to such an island; the PLLs refer to FIO. -/
def fioWork (s : State) : Bool :=
  let win := fun (a : Word) => match addrIsl a.toNat with
    | some t => fioFed t
    | none => false
  s.pwr.seq != .stable || s.sce.busy || (s.clk.pllFio && pllsRun s) || !s.clk.islBusy.isEmpty ||
    s.sns.chans.any (fun c => c.slot != .idle) || bit s.sns.xfer.ctrl 31 || s.sed.pbusy || s.cap.inst.isSome || s.cap.swap.isSome ||
    s.lc.op != .none || s.jtag.acc.isSome || s.jtag.patch.isSome || s.wiping.any (fun m => m == .supRam || m == .sce || m == .sed) ||
    (s.win.pbusy && win s.win.addr) || s.win.posted.any (fun p => win p.addr)

/-- FIO_STOP (05 R170): FIO stops when no island it feeds has work pending. -/
def execFioStop (s : State) : Host.Outcome State Fault Refusal :=
  if fioWork s then .next s else .next (updClk s (fun c => { c with fioRun := false }))

/-- `CLK_STATUS`. -/
def clkStatus (s : State) : Word :=
  let c := s.clk
  mkWord [(6, 1, b2n c.xt32Absent), (5, 1, b2n c.hrcFail), (4, 1, b2n c.pllFio), (3, 1, b2n c.xt24Run), (2, 1, b2n c.xt24Fail),
    (1, 1, b2n c.xt32Fail), (0, 1, b2n c.slowLrc)]

/-- A write of `CLK_STATUS`: two fields are W1C. -/
def clkStatusAct (v : Word) : RegAct := okAct (fun s =>
  updClk s (fun c => { c with xt24Fail := c.xt24Fail && !bit v 2, xt32Fail := c.xt32Fail && !bit v 1 }))

end Sys2Proof.Machine
end

