-- ==== Sys2Proof/Machine/Time.lean ====
section
/-! DEFINITION. Setting device time, slews, the alarm, and the time registers (05 R204 to R209). -/

namespace Sys2Proof.Machine

open Sys2Proof

/-- The time V of `TIM_SET_HI` and `TIM_SET_LO`. -/
def setTime (s : State) : Nat := s.tim.setHi.toNat * 2 ^ 32 + s.tim.setLo.toNat

/-- Offsets of the present instant at full rate, at half rate. -/
def offNow (s : State) : Nat := if exact s then offFull s else 0

def offSlew (s : State) : Nat := if exact s then offHalf s else 0

/-- A setting takes effect (R204, R205), the bound with it, so that growth kept for X2 is no part of the new one: forward at once, backward as a slew during which a stamp never falls below the last
one. Forward, open sediment entries close at the new time (10 R413) (DEDUCED, log 49). -/
def applySet (s : State) : State :=
  let s := instant s
  let v := setTime s
  let d := dtNow s
  let e := if s.tim.setErr.toNat = 0xFFFFFFFF then errTop else s.tim.setErr.toNat * errScale
  let s := updTim s (fun t => { t with err := e, errHib := 0, uncertain := false })
  if d ≤ v then
    let s := updTim s (fun t => { t with dt := v - offNow s, slew := none })
    if sedLive s then sedRoll s (dtNow s) else s
  else updTim s (fun t => { t with dt := d - offSlew s, slew := some ⟨(v : Int) - offNow s, ⟨0, 0⟩⟩ })

/-- A write of `TIM_SET_GO`. -/
def timGoAct (v : Word) : RegAct := okAct (fun s => if bits v 15 0 = 0x7153 then applySet s else s)

/-- TIM_SET_GO (R204). -/
def execTimSetGo (f : Fr) (key : BitVec 16) (s : State) : Host.Outcome State Fault Refusal :=
  .next (wframe f 0x77 (key.setWidth 32) (timGoAct (key.setWidth 32)) s)

/-- SLEW_END (R204): the slow edge at which the slewed DT reaches the true time. -/
def execSlewEnd (s : State) : Host.Outcome State Fault Refusal :=
  if aonRuns s && s.tim.slew.isSome && (s.tim.edge (tickNow s)).slew.isNone then .next (slowEdge s (tickNow s) (errPpm s)) else .next s

/-- ALARM_FIRE (R206). -/
def execAlarmFire (s : State) : Host.Outcome State Fault Refusal :=
  let t := instant s
  if aonRuns s && s.tim.alarmEn && decide (alarmTime t ≤ dtNow t) then
    .next (fireWake (raiseInt (updTim t (fun m => { m with fired := true, alarmEn := false })) intAlarm) wakeAlarm false)
  else .next s

/-- A write of index 0x70 to 0x7B (R208). -/
def timAct (i : Nat) (v : Word) : RegAct := fun s =>
  if i = 0x74 then (updTim s (fun t => { t with setLo := v }), stOk)
  else if i = 0x75 then (updTim s (fun t => { t with setHi := v }), stOk)
  else if i = 0x76 then (updTim s (fun t => { t with setErr := v }), stOk)
  else if i = 0x77 then timGoAct v s
  else if i = 0x78 then (updTim s (fun t => { t with alarmLo := v }), stOk)
  else if i = 0x79 then (updTim s (fun t => { t with alarmHi := v, alarmEn := false }), stOk)
  else if i = 0x7A then (updTim s (fun t => { t with alarmEn := bit v 0, fired := t.fired && !bit v 1 }), stOk)
  else if i = 0x7B then (updTim s (fun t => { t with cfg := mkWord [(16, 12, bits v 27 16), (0, 12, bits v 11 0)] }), stOk)
  else (s, stOk)

/-- TIM_ALARM_HI_WRITE (R207). -/
def execTimAlarmHiWrite (f : Fr) (v : Word) (s : State) : Host.Outcome State Fault Refusal := .next (wframe f 0x79 v (timAct 0x79 v) s)

/-- A read of `TIM_NOW_LO` latches DT and its quality (R209) (DEDUCED, log 68). -/
def latchNow (s : State) : State :=
  let s := instant s
  stamped (updTim s (fun t => { t with latDt := dtNow s, latQual := qualNow s }))

/-- A read of index 0x70 to 0x7B; `TIM_NOW_LO` after `latchNow`. -/
def timRead (s : State) (i : Nat) : Word :=
  let t := s.tim
  if i = 0x70 then BitVec.ofNat 32 t.latDt
  else if i = 0x71 then BitVec.ofNat 32 (t.latDt / 2 ^ 32)
  else if i = 0x72 then mkWord [(3, 1, b2n t.slew.isSome), (2, 1, b2n t.uncertain), (0, 2, t.latQual.toNat)]
  else if i = 0x73 then BitVec.ofNat 32 (errBound s)
  else if i = 0x74 then t.setLo
  else if i = 0x75 then t.setHi
  else if i = 0x76 then t.setErr
  else if i = 0x78 then t.alarmLo
  else if i = 0x79 then t.alarmHi
  else if i = 0x7A then mkWord [(1, 1, b2n t.fired), (0, 1, b2n t.alarmEn)]
  else if i = 0x7B then t.cfg
  else 0

end Sys2Proof.Machine
end

