-- ==== Sys2Proof/Machine/Power.lean ====
section
/-! DEFINITION. The power sequencer of I1 (chapter 04): commands and refusals, entry steps with their abort points, reversals,
exits with their checkpoints, warm resets, PMIC scripts and PWR_GOOD, operating points, pads, the power registers. -/

namespace Sys2Proof.Machine

open Sys2Proof

/-- `PWR_CMD.STATE`. -/
def PState.code : PState → Nat
  | .run => 0
  | .idle => 1
  | .watch => 2
  | .hibernate => 3
  | .off => 4

/-- The target is WATCH or deeper. -/
def PState.deep : PState → Bool
  | .run => false
  | .idle => false
  | _ => true

/-! ### Refusals (R129 to R132, R148, R149) -/

/-- `RESULT` of a transition or operating-point change that has ended, and its interrupt source (06 R242; DEDUCED, log 37). -/
def powerResult (s : State) (r : Nat) : State := raiseInt (updPwr s (fun p => { p with result := r })) intPwr

/-- A refusal is counted and recorded (R149). -/
def refuse (s : State) (code : Byte) (req : Nat) (op : Bool) : State :=
  updPwr s (fun p => { p with refuseCnt := satInc 0xFFFF p.refuseCnt, refCode := code, refReq := req, refOp := op })

/-- A request turned away with nothing begun. `RESULT` is REFUSED in a stable state; while a transition is under way it is left to
that transition (R165, R717; DEDUCED, log 51). -/
def refuseNow (s : State) (code : Byte) (req : Nat) (op : Bool) : State :=
  if s.pwr.seq == .stable then powerResult (refuse s code req op) 2 else refuse s code req op

/-- A reservation with non-zero bandwidth is admitted. -/
def reserved (s : State) : Bool := s.qm.streams.any (fun q => (qd s q).rbw != 0)

/-- The static checks of R129; of several refusers the one with the lowest code. -/
def staticRefuser (s : State) (tgt : PState) : Option Byte :=
  if (tgt == .hibernate || tgt == .off) && s.hp.armed && !s.hp.hold then some 0x02
  else if reserved s then some 0x05
  else if s.cap.inst.isSome || inTransition s then some 0x0A
  else none

/-- The address ranges of memory that a target removes (R131). -/
def removedRam (s : State) (tgt : PState) : List (Nat × Nat) :=
  (pdNums.filter (fun n => levelIn s tgt n == .off && pdLevel s n != .off)).flatMap (fun n =>
    if n = 20 then [(0x80000000, 0xA0000000)] else if n = 21 then [(0xA0000000, 0xC0000000)] else pdRam n)

/-- A queue stored in a domain to be removed holds items (R131); Q16383 lies in supervisor RAM. -/
def queuesHeld (s : State) (tgt : PState) : Bool :=
  (s.qm.qdt.any (fun x => x.1 != 16383 && x.2.cls != clsUnused && x.2.occ != 0 &&
    (removedRam s tgt).any (fun r => meetRange x.2.storage r))) ||
  (levelIn s tgt 6 == .off && !s.qm.evq.isEmpty)

/-- A Slip port is not ready: a transmitted frame is not acknowledged, or a frame is being received on a link that runs (R132). -/
def slipBusy (s : State) (p : Port) (part : Bool) : Bool :=
  !(slipSt s p).replay.isEmpty || (part && ((slipSt s p).state == .up || (slipSt s p).state == .credit))

/-- The block that is not ready at E2, of several the one with the lowest code (R130 to R132); while a producer stands stalled on a full
sink the jobs behind it cannot commit, and the refuser is the queue (11 R472). `rx` says on which ports a frame is
part-received. -/
def notReady (s : State) (tgt : PState) (rx : RxPart) : Option Byte :=
  if s.hp.stRun then some 0x03
  else if sinkStalled s then some 0x06
  else if s.ldg.used ≠ 0 then some 0x04
  else if queuesHeld s tgt then some 0x06
  else if slipBusy s .slp0 rx.slp0 then some 0x07
  else if slipBusy s .slp1 rx.slp1 then some 0x08
  else none

/-- Every window access started before AP1 has completed (01 R64). -/
def windowQuiet (s : State) : Bool := !(s.win.pbusy && !s.win.plate) && s.win.posted.all (fun w => w.late)

/-! ### Entries (R126 to R133, R136) -/

/-- The entry is refused after AP1 and turned back at an abort point (R133). -/
def refuseAt (s : State) (code : Byte) (ap : Nat) (resume : Option Nat) : State :=
  beginReverse (refuse s code s.pwr.tgt.code false) ap (.refuse code) resume

/-- The pad groups, by the domain of their pads (R156, R165). -/
def padPd (g : Nat) : Nat := if g ≤ 2 then 2 else if g = 3 then 18 else if g ≤ 6 then 22 else 23

/-- The pad groups whose domain the target switches off. -/
def padsOf (s : State) (tgt : PState) : Nat :=
  ((List.range 8).filter (fun g => !pdAbsent s (padPd g) && levelIn s tgt (padPd g) == .off)).foldl (fun a g => a + 2 ^ g) 0

/-- A step begins. E2 with `QWAIT` = 0 refuses at once when a block is not ready (R165). E5 latches pads, starts the down
script, which begins even when it is empty (DEDUCED, log 36), ignores PWR_GOOD from then on, and for HIBERNATE records the time. -/
def beginStep (s : State) (step : Nat) (qw : BitVec 4) (cut : Cut) (resume : Option Nat) (rx : RxPart) : State :=
  let tgt := s.pwr.tgt
  let s := updPwr s (fun p => { p with seq := .entry step qw cut resume })
  if step = 2 && qw == 0 then
    match notReady s tgt rx with
    | some code => refuseAt s code 1 resume
    | none => s
  else if step = 5 then
    let s := updPwr s (fun p =>
      { p with pads := p.pads ||| BitVec.ofNat 8 (padsOf s tgt), pgIgnored := true, scriptRan := true })
    let s := if tgt == .hibernate then updTim s (fun t => { t with snapDt := t.dt, snapTicks := t.ticks }) else s
    startScript s (if tgt == .watch then 0 else 6)
  else s

/-- E1 begins (R128); the static checks refuse at once. With a wake event pending the entry will be abandoned at AP1 (R136)
(DEDUCED, log 54). -/
def startEntry (s : State) (tgt : PState) (qw : BitVec 4) : State :=
  match staticRefuser s tgt with
  | some code => refuseNow s code tgt.code false
  | none =>
    askFio (updPwr s (fun p =>
      { p with tgt, seq := .entry 1 qw (if wakePending s then .wake else .none) none, e4Stopped := false, scriptRan := false,
               woken := false }))

/-! ### Operating points (R150 to R155) -/

/-- A change to `TARGET` begins in RUN or IDLE (R150, R153): up, script first; down, relock first. -/
def kickOp (s : State) : State :=
  let p := s.pwr
  if p.seq == .stable && !p.st.deep && p.opStage == .none && p.opTgt != p.opCur then
    let s := askFio s
    if p.opCur < p.opTgt then
      let s := startScript (updPwr s (fun p => { p with opStage := .script, opGoal := p.opTgt })) (2 + p.opTgt)
      if scriptEmpty s (2 + p.opTgt) then updClk (updPwr s (fun p => { p with opStage := .relock })) (fun c => { c with relock0 := true }) else s
    else updClk (updPwr s (fun p => { p with opStage := .relock, opGoal := p.opTgt })) (fun c => { c with relock0 := true })
  else s

/-- The sequencer stands still: a deferred command begins (R166); where none does, or it is refused, a recorded operating point is
acted on (R150, R153). -/
def settle (s : State) : State :=
  if s.pwr.seq == .stable && s.pwr.opStage == .none then
    match s.pwr.deferred with
    | some (tgt, qw) =>
      let s := updPwr s (fun p => { p with deferred := none })
      kickOp (if tgt == s.pwr.st then refuseNow s 0x01 tgt.code false else startEntry s tgt qw)
    | none => kickOp s
  else s

/-- An operating-point change ends. -/
def opEnd (s : State) (r : Nat) : State := settle (powerResult (updPwr s (fun p => { p with opStage := .none })) r)

/-- An OP script has failed: the frequency then running stays, `CURRENT` and `TARGET` name it (R155). -/
def opFail (s : State) : State :=
  deviceFault (instant (updPwr s (fun p => { p with opTgt := p.opCur, pmicFault := true }))) 0x27 1 1 15

/-- PLL_RELOCK_DONE (R154, 05 R171): the stopped islands resume; a change goes on. -/
def execPllRelockDone (s : State) : Host.Outcome State Fault Refusal :=
  if !s.clk.relock0 && !s.clk.relock1 then .next s
  else
    let s := updClk s (fun c => { c with relock0 := false, relock1 := false })
    if s.pwr.opStage == .relock then
      let down := decide (s.pwr.opGoal < s.pwr.opCur)
      let s := updPwr s (fun p => { p with opCur := p.opGoal })
      if down then
        let s := startScript (updPwr s (fun p => { p with opStage := .script })) (2 + s.pwr.opGoal)
        if s.pwr.script.isNone then .next (opEnd s 1) else .next s
      else .next (opEnd s 1)
    else .next s

/-- A write of `PWR_OP.TARGET` (R151 to R153). Of several refusers the code is that of OP3 on H grade, then of an empty script, then
of the reservations: the rules give no order (DESIGN CHOICE, log 87). -/
def opAct (op : Nat) : RegAct := okAct (fun s =>
  if s.fuses.hgrade && op == 3 then refuseNow s 0x01 op true
  else if scriptEmpty s (2 + op) then refuseNow s 0x09 op true
  else if !chargesFit s op then refuseNow s 0x05 op true
  else kickOp (updPwr s (fun p => { p with opTgt := op })))

/-- PWR_OP_TARGET. -/
def execPwrOpTarget (f : Fr) (op : BitVec 2) (s : State) : Host.Outcome State Fault Refusal := .next (wframe f 0x12 (op.setWidth 32) (opAct op.toNat) s)

/-! ### `PWR_CMD` (R127, R147, R166) -/

/-- The targets accepted in a stable state (R127). -/
def acceptable (st tgt : PState) : Bool :=
  match st with
  | .run => tgt != .run
  | .idle => tgt != .idle
  | .watch => tgt == .run || tgt == .hibernate || tgt == .off
  | .hibernate => tgt == .run || tgt == .off
  | .off => false

/-- `SEDRET` of an accepted command counts for HIBERNATE (R165). A refused command leaves it. -/
def keepSed (s : State) (tgt : PState) (sedret : Bool) : State :=
  if tgt == .hibernate then updPwr s (fun p => { p with sedret }) else s

/-- A `PWR_CMD` write (R127, R147, R166). A PMIC fault that stands refuses every target but RUN from HIBERNATE or OFF, RUN in an exit
too (DESIGN CHOICE, log 89); RUN in IDLE starts the exit at once even during an operating-point change (DESIGN CHOICE, log 90)
(DEDUCED, log 38; DEDUCED, log 55). -/
def pwrCmd (tgt : PState) (qw : BitVec 4) (sedret : Bool) : RegAct := okAct (fun s =>
  let no := refuseNow s 0x01 tgt.code false
  if s.pwr.pmicFault && !(tgt == .run && s.pwr.seq == .stable && (s.pwr.st == .hibernate || s.pwr.st == .off)) then no
  else match s.pwr.seq with
    | .stable =>
      if !acceptable s.pwr.st tgt then no
      else if tgt == .run then fireWake s wakeHost false
      else if s.pwr.opStage != .none then updPwr (keepSed s tgt sedret) (fun p => { p with deferred := some (tgt, qw) })
      else startEntry (if (staticRefuser s tgt).isSome then s else keepSed s tgt sedret) tgt qw
    | .entry _ _ _ _ => if tgt == .run then fireWake s wakeHost false else refuse s 0x01 tgt.code false
    | .reverse _ _ _ _ => if tgt == .run then fireWake s wakeHost false else refuse s 0x01 tgt.code false
    | .exit cp _ res =>
      if tgt == .run then updPwr s (fun p => { p with wakeSrc := p.wakeSrc ||| 1 })
      else match staticRefuser s tgt with
        | some code => refuse s code tgt.code false
        | none => updPwr (keepSed s tgt sedret) (fun p => { p with seq := .exit cp (some (tgt, qw)) res })
    | .warm _ => refuse s 0x01 tgt.code false)

/-- The data word of a `PWR_CMD` frame (R165). -/
def pwrCmdWord (tgt : PState) (qw : BitVec 4) (sedret : Bool) : Word := mkWord [(12, 4, qw.toNat), (8, 1, b2n sedret), (0, 3, tgt.code)]

/-- PWR_CMD_RUN. -/
def execPwrCmdRun (f : Fr) (qw : BitVec 4) (sedret : Bool) (s : State) : Host.Outcome State Fault Refusal :=
  .next (wframe f 0x10 (pwrCmdWord .run qw sedret) (pwrCmd .run qw sedret) s)

/-- PWR_CMD_IDLE. -/
def execPwrCmdIdle (f : Fr) (qw : BitVec 4) (sedret : Bool) (s : State) : Host.Outcome State Fault Refusal :=
  .next (wframe f 0x10 (pwrCmdWord .idle qw sedret) (pwrCmd .idle qw sedret) s)

/-- PWR_CMD_WATCH. -/
def execPwrCmdWatch (f : Fr) (qw : BitVec 4) (sedret : Bool) (s : State) : Host.Outcome State Fault Refusal :=
  .next (wframe f 0x10 (pwrCmdWord .watch qw sedret) (pwrCmd .watch qw sedret) s)

/-- PWR_CMD_HIBERNATE. -/
def execPwrCmdHibernate (f : Fr) (qw : BitVec 4) (sedret : Bool) (s : State) : Host.Outcome State Fault Refusal :=
  .next (wframe f 0x10 (pwrCmdWord .hibernate qw sedret) (pwrCmd .hibernate qw sedret) s)

/-- PWR_CMD_OFF. -/
def execPwrCmdOff (f : Fr) (qw : BitVec 4) (sedret : Bool) (s : State) : Host.Outcome State Fault Refusal :=
  .next (wframe f 0x10 (pwrCmdWord .off qw sedret) (pwrCmd .off qw sedret) s)

/-! ### Abort points (R128) -/

/-- The target is reached. A wake event after AP5 starts the exit (R138). -/
def finishEntry (s : State) : State :=
  let tgt := s.pwr.tgt
  let woken := s.pwr.woken
  let s := powerResult (updPwr s (fun p => { p with st := tgt, seq := .stable, woken := false, porUp := false })) 1
  if woken && tgt != .off then beginExit s else settle s

/-- The Slip transmitters stop (07 R312). -/
def linksStop (s : State) : State :=
  [Port.slp0, .slp1].foldl (fun t p => if pdPowered t (portPd p) then slpIdle t p else t) s

/-- What a step has done when its abort point is declared, E6 when the target is reached. -/
def stepWork (s : State) (step : Nat) : State :=
  let tgt := s.pwr.tgt
  if step = 1 then updPwr s (fun p => { p with admission := false })
  else if step = 2 then updQm s (fun q => { q with checkpoint := true })
  else if step = 3 then
    if tgt.deep then
      [6, 8, 17].foldl (fun t n => if pdOn t n then setPd t n .ret else t) (updPwr s (fun p => { p with supSaved := true }))
    else s
  else if step = 4 then
    if tgt.deep then
      let was := pllsRun s
      let s := pdNums.foldl (fun t n => if 5 ≤ n && levelIn t tgt n == .off && pdOn t n then setPd t n .gated else t) (linksStop s)
      updClk (updPwr s (fun p => { p with e4Stopped := was })) (fun c => { stopXt24 c with relock0 := false, relock1 := false })
    else toLevels (linksStop s) .idle
  else if step = 6 then
    let s := toLevels s tgt
    if tgt == .watch then s else updPwr s (fun p => { p with pwrReq := false })
  else s

/-- The step may end: E2 waits for every block and for window accesses, E5 for its script. -/
def stepReady (s : State) (step : Nat) (rx : RxPart) : Bool :=
  if step = 2 then (notReady s s.pwr.tgt rx).isNone && windowQuiet s else s.pwr.script.isNone

/-- ABORT_POINT: a step completes. A cut entry is reversed from here (R137); an IDLE entry ends at AP4. -/
def execAbortPoint (s : State) (rx : RxPart := .none) : Host.Outcome State Fault Refusal :=
  match s.pwr.seq with
  | .entry step qw cut resume =>
    let s := if step = 2 then evConsume s else s
    if !stepReady s step rx then .next s
    else
      let s := stepWork s step
      match cut with
      | .none =>
        if step = 6 || (step = 4 && s.pwr.tgt == .idle) then .next (finishEntry s) else .next (beginStep s (step + 1) qw .none resume rx)
      | c => .next (beginReverse s step c resume)
  | _ => .next s

/-- QUIESCE_TIMEOUT (R130): E2 is refused, with the block that is not ready. -/
def execQuiesceTimeout (s : State) (rx : RxPart := .none) : Host.Outcome State Fault Refusal :=
  match s.pwr.seq with
  | .entry 2 _ _ resume =>
    let s := evConsume s
    (match notReady s s.pwr.tgt rx with
     | some code => .next (refuseAt s code 1 resume)
     | none => .next s)
  | _ => .next s

/-! ### Reversals (R145 to R147) -/

/-- XT24, when it is in use, and the PLLs restart if E4 stopped them. -/
def clocksBack (s : State) : State :=
  if s.pwr.e4Stopped then
    updPwr (updClk s (fun c => { c with xt24Run := !c.pllFio })) (fun p => { p with e4Stopped := false })
  else s

/-- The undo work of an abort point and the steps back to `first` (R145). A resumed entry undoes only the steps it performed: those of
E4 (clocks started) and of E3 (the domains that it put in retention back to On, the saved supervisor state discarded); what still
waits for X4 in an exit that resumed before C4 stays in retention (R147). -/
def undo (s : State) (ap first : Nat) (resume : Option Nat) : State :=
  let s := updQm s (fun q => { q with checkpoint := q.checkpoint && decide (2 < first) })
  let s := if 4 ≤ ap && first ≤ 4 then clocksBack s else s
  match resume with
  | none =>
    let s := toLevels s s.pwr.st
    let s := if s.pwr.st.deep then updClk s stopXt24 else s
    updPwr s (fun p => { p with supSaved := p.supSaved && p.st == .watch, admission := p.st == .run })
  | some c =>
    let e3 := decide (3 ≤ ap) && decide (first ≤ 3)
    let s := if e3 then updPwr s (fun p => { p with supSaved := false }) else s
    pdNums.foldl (fun t n =>
      if pdLevel t n == .gated then setPd t n .on
      else if e3 && pdLevel t n == .ret && (c == 4 || levelIn t t.pwr.st n != .ret) then setPd t n .on
      else t) s

/-- REVERSAL_DONE: the device stands in its starting state, or a resumed entry's exit goes on (R147). A wake event that
abandoned the entry, or fired meanwhile, then starts an exit from a state below RUN (R135, R137, R166). `TARGET` keeps the target of
the reversed entry until the next transition, for R165 gives it no value in a stable state (DESIGN CHOICE, log 91). -/
def execReversalDone (s : State) : Host.Outcome State Fault Refusal :=
  match s.pwr.seq with
  | .reverse ap first cut resume =>
    if s.pwr.script.isSome || s.pwr.awaitPg then .next s
    else
      let t := undo s ap first resume
      let res := if cut = .wake then 3 else 2
      let go := cut == .wake || s.pwr.woken
      (match resume with
       | some c => .next (updPwr t (fun p => { p with tgt := .run, seq := .exit c none res, woken := false }))
       | none =>
         let t := noteReady s (powerResult (updPwr t (fun p => { p with seq := .stable, woken := false })) res)
         if go && s.pwr.st != .run then .next (beginExit t) else .next (settle t))
  | _ => .next s

/-! ### Exits and warm resets (R141 to R144, R147, 05 R179) -/

/-- Every domain powers up; what is in retention stays so until X4. -/
def powerUp (s : State) : State := pdNums.foldl (fun t n => if pdLevel t n == .ret then t else pdOnAgain t n) s

/-- X2 of an exit from HIBERNATE: device time is bridged, the error bound takes the growth of the sleep (05 R197, R198, R201). -/
def bridgeTime (s : State) : State :=
  updTim s (fun t => { t with err := errAdd t.err t.errHib, errHib := 0, bridged := true })

/-- X3: XT24 starts if stopped. When it does not pass its monitor, the PLLs stay on FIO, with a record (05 R175) (DEDUCED, log 56). -/
def startXt24 (s : State) (x : Xt24Start) : State :=
  if s.clk.xt24Run then s
  else match x with
    | .good => updClk s (fun c => { c with xt24Run := true, pllFio := false })
    | .noEdge => clkRec (updClk s (fun c => { c with xt24Fail := true, pllFio := true })) cXt24 0
    | .outOfRange => clkRec (updClk s (fun c => { c with xt24Fail := true, pllFio := true })) cXt24 1

/-- An uncorrectable error stands in PD6, in PD8. -/
def retErr (s : State) (n : Nat) : Bool :=
  pdLevel s n == .ret && (if n = 6 then s.pwr.supEcc else s.ecc.any (fun a => decide (0x30000000 ≤ a) && decide (a < 0x30040000)))

/-- X4: retention ends; an error found then is a warm reset (05 R176). -/
def leaveRet (s : State) : State :=
  let t := [6, 8, 17].foldl (fun t n => if pdLevel t n == .ret then setPd t n .on else t) (updQm s (fun q => { q with checkpoint := false }))
  let bad := if retErr s 6 then some 6 else if retErr s 8 then some 8 else none
  match bad with
  | some n => startWarm (deviceFault (instant t) 0x28 (BitVec.ofNat 8 n) 1 15) rcRetEcc
  | none => updPwr t (fun p => { p with supSaved := false })

/-- C5: queue traffic resumes, Q16383 stands (DEDUCED, log 24), admission opens, `SUP_RDY` rises. -/
def openAdmission (s : State) : State :=
  let s := if qd s 16383 = QDesc.unused then storeQd s 16383 evDesc else s
  noteReady s (updPwr s (fun p => { p with admission := true, supRdy := true }))

/-- The work of exit step k. -/
def exitWork (s : State) (k : Nat) (x : Xt24Start) : State :=
  if k = 1 then askFio (powerUp s)
  else if k = 2 then (if s.pwr.st == .hibernate then bridgeTime s else powerUp s)
  else if k = 3 then
    let s := startXt24 s x
    let s := updPwr s (fun p => { p with e4Stopped := false })
    if s.pwr.st == .idle && !inWarm s then powerUp s else updPwr s (fun p => { p with opCur := 0 })
  else if k = 4 then leaveRet s
  else openAdmission s

/-- A step may reach its checkpoint: C1 waits for WATCH_UP and PWR_GOOD, C3 for the wipes of Silt memories, C4 for every wipe
(05 R189). -/
def exitReady (s : State) (k : Nat) : Bool :=
  if k = 1 then s.pwr.script.isNone && !s.pwr.awaitPg
  else if k = 3 then !s.wiping.contains .sce && !s.wiping.contains .sed && !s.wiping.contains .hpRules
  else if k = 4 then s.wiping.isEmpty
  else true

/-- The checkpoint that follows cp: an exit from IDLE performs X3 and X5 only, a warm reset from RUN or IDLE X2 to X5. -/
def nextCp (st : PState) (warm : Bool) (cp : Nat) : Nat :=
  if warm then (if cp = 0 && !st.deep then 2 else cp + 1)
  else if st == .idle then (if cp < 3 then 3 else 5)
  else cp + 1

/-- The exit ends in RUN, the power-up after power-on reset with `RESULT` DONE (R717). A redirection to IDLE, or one that came after
C4, is now an entry in full (R147); where it is refused a recorded operating point is acted on (R143, R153) (DEDUCED, log 53). -/
def endExit (s : State) (next : Option (PState × BitVec 4)) (res : Nat) : State :=
  let res := if s.pwr.porUp then 1 else res
  let s := powerResult (updPwr s (fun p => { p with st := .run, tgt := .run, seq := .stable, porUp := false, repeatX2 := false })) res
  match next with
  | some (tgt, qw) => kickOp (startEntry s tgt qw)
  | none => settle s

/-- Islands held by a warm reset are released, tile links train, the window fetches; I2 stays held after an HRC failure. -/
def releaseWarm (s : State) : State :=
  let s := { s with isl := s.isl.zipIdx.map (fun x => if x.2 ≤ 2 then x.1 else { x.1 with held := false }), win := Win.reset }
  [Tile.t0, .t1, .io].foldl (fun t x => if tilePresent t x && pdPowered t (tilePd x) then tilePowerUp t x else t) s

/-- The life-cycle command whose T4 this warm reset is ends (16 R637, R639); the factory default rules are loaded (16 R640). -/
def endLcWarm (s : State) : State :=
  match s.lc.op with
  | .warm ok =>
    let s := loadRules s (factoryRules s.boot.strapHpdef)
    raiseInt (updLc s (fun l => { l with op := .none, result := if ok then 1 else 3 })) intCapsule
  | _ => s

/-- A warm reset ends in RUN at OP0, or for a PMIC fault in HIBERNATE with PD17 in retention (R163, 05 R179); a PD17 that was off, its
memory lost and zero, is put in retention too (DEDUCED, log 92). -/
def endWarm (s : State) : State :=
  if s.pwr.warmPmic then
    let s := releaseWarm s
    let s := updPwr s (fun p => { p with sedret := true, st := .hibernate, tgt := .hibernate, seq := .stable, pwrReq := false, warmPmic := false })
    let s := setPd s 17 .ret
    let s := updClk (toLevels s .hibernate) stopXt24
    let s := { s with wiping := s.wiping.filter (fun m => (wipePds m).any (fun k => pdPowered s k || pdLevel s k == .ret)) }
    endLcWarm (powerResult (updTim s (fun t => { t with snapDt := t.dt, snapTicks := t.ticks })) 4)
  else
    let s := endLcWarm (exitWork s 5 .good)
    settle (powerResult (updPwr s (fun p => { p with st := .run, tgt := .run, seq := .stable, repeatX2 := false })) 1)

/-- X2 is to be repeated before the exit goes on: I21 was reset after C2 (R166). -/
def repeatsX2 (s : State) (cp : Nat) : Bool := s.pwr.repeatX2 && decide (2 ≤ cp)

/-- CHECKPOINT: an exit step, or a step of a warm reset, completes. In manufacturing test mode no exit runs (02 R82). After a reset of
I21 the step is X2 again: the supervisor core starts from its reset vector once I21 is released, and the exit continues from the
checkpoint it had reached (R166). -/
def execCheckpoint (x : Xt24Start) (s : State) : Host.Outcome State Fault Refusal :=
  if s.boot.mfg then .next s
  else match s.pwr.seq with
    | .exit cp next res =>
      let k := nextCp s.pwr.st false cp
      if repeatsX2 s cp then (if (islSt s 21).held then .next s else .next (updPwr s (fun p => { p with repeatX2 := false })))
      else if !exitReady s k then .next s
      else
        let s := exitWork (updPwr s (fun p => { p with repeatX2 := false })) k x
        if inWarm s then .next s
        else if k = 5 then .next (endExit s next res)
        else
          (match next with
           | some (tgt, qw) =>
             if tgt == .idle then .next (updPwr s (fun p => { p with seq := .exit k next res }))
             else
               let s := updPwr s (fun p => { p with tgt, e4Stopped := false, scriptRan := false, woken := false })
               .next (beginStep s (firstStep (some k)) qw .none (some k) ⟨false, false⟩)
           | none => .next (updPwr s (fun p => { p with seq := .exit k none res })))
    | .warm cp =>
      if s.pwr.warmPmic then .next s
      else
        let k := nextCp s.pwr.st true cp
        if !exitReady s k then .next s
        else if 5 ≤ k then .next (endWarm s)
        else
          let s := exitWork (if cp = 0 then releaseWarm s else s) k x
          if s.pwr.seq != .warm cp then .next s else .next (updPwr s (fun p => { p with seq := .warm k }))
    | _ => .next s

/-- WARM_RESET_DONE (05 R179): C5 of the warm reset, or its end in HIBERNATE. -/
def execWarmResetDone (s : State) : Host.Outcome State Fault Refusal :=
  match s.pwr.seq with
  | .warm cp => if s.pwr.warmPmic || cp = 4 then .next (endWarm s) else .next s
  | _ => .next s

/-! ### PMIC (R161 to R164) -/

/-- PWR_GOOD_RISE. In manufacturing test mode the debug domain alone is powered. -/
def execPwrGoodRise (s : State) : Host.Outcome State Fault Refusal :=
  let t := updPwr s (fun p => { p with pwrGood := true })
  if s.pwr.awaitPg then
    let t := updPwr t (fun p => { p with awaitPg := false })
    if s.boot.mfg then .next (pdOnAgain t 23) else .next (afterPg t)
  else .next t

/-- PWR_GOOD_TIMEOUT. -/
def execPwrGoodTimeout (s : State) : Host.Outcome State Fault Refusal :=
  if s.pwr.awaitPg && !s.boot.por then .next (pmicFault (updPwr s (fun p => { p with awaitPg := false })) 0) else .next s

/-- The device relies on PWR_GOOD. -/
def reliesPg (s : State) : Bool := s.pwr.pwrGood && s.pwr.pwrReq && !s.pwr.awaitPg && !s.pwr.pgIgnored && !s.boot.por && !s.boot.mfg

/-- PWR_GOOD_DROP. -/
def execPwrGoodDrop (s : State) : Host.Outcome State Fault Refusal :=
  let t := updPwr s (fun p => { p with pwrGood := false })
  if reliesPg s then .next (pmicFault t 2) else .next t

/-- A script has run through. -/
def scriptDone (s : State) (slot : Nat) : State :=
  let s := updPwr s (fun p => { p with script := none })
  if slot = 1 then waitPg s
  else if 2 ≤ slot && slot ≤ 5 && s.pwr.opStage == .script then
    if s.pwr.opCur < s.pwr.opGoal then updClk (updPwr s (fun p => { p with opStage := .relock })) (fun c => { c with relock0 := true })
    else opEnd s 1
  else s

/-- The down script of an entry has failed: a refusal at AP5 (R166). Where a wake event arrived during E5 the entry is abandoned too
(R137): the refusal and the abort are both counted, and the reversal is that of a wake event (DESIGN CHOICE, log 93). -/
def downFailed (s : State) (cut : Cut) (resume : Option Nat) : State :=
  match cut with
  | .wake => beginReverse (refuse s 0x09 s.pwr.tgt.code false) 5 .wake resume
  | _ => refuseAt s 0x09 5 resume

/-- A script has failed (R155, R163, R166) (DEDUCED, log 50). -/
def scriptFailed (s : State) (slot : Nat) : State :=
  let s := updPwr s (fun p => { p with script := none })
  if slot = 1 then pmicFault s 1
  else if 2 ≤ slot && slot ≤ 5 then (if s.pwr.opStage == .script then opEnd (opFail s) 4 else opFail s)
  else match s.pwr.seq with
    | .entry _ _ cut resume => downFailed s cut resume
    | _ => s

/-- PMIC_SCRIPT_ENTRY_DONE: one I2C write, retried once on a NACK. -/
def execPmicScriptEntryDone (ack : Bool) (s : State) : Host.Outcome State Fault Refusal :=
  match s.pwr.script with
  | none => .next s
  | some sc =>
    if ack then
      let i := sc.idx + 1
      if i = 8 || bits (scriptWord s sc.slot i) 31 25 == 0 then .next (scriptDone s sc.slot)
      else .next (updPwr s (fun p => { p with script := some ⟨sc.slot, i, false⟩ }))
    else if sc.retried then .next (scriptFailed s sc.slot)
    else .next (updPwr s (fun p => { p with script := some { sc with retried := true } }))

/-! ### Pads (R156 to R158) -/

/-- A write of `PAD_RELEASE`. -/
def padAct (mask : Nat) : RegAct := okAct (fun s =>
  let go := ((List.range 8).filter (fun g => mask.testBit g && pdOn s (padPd g))).foldl (fun a g => a + 2 ^ g) 0
  updPwr s (fun p => { p with pads := p.pads &&& ~~~ BitVec.ofNat 8 go }))

/-- PAD_RELEASE. -/
def execPadRelease (f : Fr) (mask : BitVec 8) (s : State) : Host.Outcome State Fault Refusal := .next (wframe f 0x18 (mask.setWidth 32) (padAct mask.toNat) s)

/-! ### Registers (R165) -/

/-- `PWR_STATUS.PHASE`. A resumed entry has passed the abort points before its first step (DEDUCED, log 52). -/
def phase (s : State) : Nat :=
  match s.pwr.seq with
  | .stable => 0
  | .entry step _ _ _ => step - 1
  | .reverse ap _ _ _ => ap
  | .exit cp _ _ => if cp = 0 then 0 else 8 + cp
  | .warm cp => if cp = 0 then 0 else 8 + cp

/-- The pad groups that read latched: those of an absent tile read 0. -/
def padsRead (s : State) : Nat :=
  ((List.range 8).filter (fun g => s.pwr.pads.getLsbD g && !pdAbsent s (padPd g))).foldl (fun a g => a + 2 ^ g) 0

/-- A read of index 0x10 to 0x18. -/
def pwrRead (s : State) (i : Nat) : Word :=
  let p := s.pwr
  if i = 0x11 then
    mkWord [(20, 4, p.result), (19, 1, b2n p.pmicFault), (16, 1, b2n (p.seq != .stable)), (12, 4, phase s), (8, 3, p.tgt.code), (0, 3, p.st.code)]
  else if i = 0x12 then mkWord [(8, 1, b2n (p.opStage != .none)), (4, 2, p.opCur), (0, 2, p.opTgt)]
  else if i = 0x13 then mkWord [(0, 6, p.wakeEn.toNat)]
  else if i = 0x14 then mkWord [(0, 6, p.wakeSrc.toNat)]
  else if i = 0x15 then mkWord [(0, 16, p.refuseCnt)]
  else if i = 0x16 then mkWord [(0, 16, p.abortCnt)]
  else if i = 0x17 then mkWord [(16, 1, b2n p.refOp), (8, 3, p.refReq), (0, 8, p.refCode.toNat)]
  else if i = 0x18 then mkWord [(0, 8, padsRead s)]
  else 0

/-- The target that `PWR_CMD.STATE` names; a reserved encoding names none. -/
def targetOfCode (n : Nat) : Option PState :=
  if n = 0 then some .run else if n = 1 then some .idle else if n = 2 then some .watch else if n = 3 then some .hibernate
  else if n = 4 then some .off else none

/-- A write of index 0x10 to 0x18. -/
def pwrAct (i : Nat) (v : Word) : RegAct := fun s =>
  if i = 0x10 then
    match targetOfCode (bits v 2 0) with
    | some tgt => pwrCmd tgt (BitVec.ofNat 4 (bits v 15 12)) (bit v 8) s
    | none => (s, stOk)
  else if i = 0x11 then (updPwr s (fun p => { p with pmicFault := p.pmicFault && !bit v 19 }), stOk)
  else if i = 0x12 then opAct (bits v 1 0) s
  else if i = 0x13 then (updPwr s (fun p => { p with wakeEn := BitVec.ofNat 6 (bits v 5 1 * 2 + 1) }), stOk)
  else if i = 0x14 then (updPwr s (fun p => { p with wakeSrc := p.wakeSrc &&& ~~~ BitVec.ofNat 6 (bits v 5 0) }), stOk)
  else if i = 0x18 then padAct (bits v 7 0) s
  else (s, stOk)

/-- A read of the I1 window; none: nothing is mapped there. -/
def i1Read (s : State) (off : Nat) : Option Word :=
  if off % 4 ≠ 0 then none
  else if off = 0x1C0 then some s.pwr.cfg
  else if 0x200 ≤ off ∧ off < 0x300 then some (if off < 0x2E0 then nth s.pwr.scripts ((off - 0x200) / 4) 0 else 0)
  else none

/-- A write of the I1 window's PMIC registers; slot 7 takes none. -/
def i1Write (off : Nat) (v : Word) (s : State) : State :=
  if off = 0x1C0 then
    updPwr s (fun p => { p with cfg := writeReg [{ hi := 4, lo := 4, acc := .rw }, { hi := 3, lo := 0, acc := .rw, min := 1 }] p.cfg v })
  else if 0x200 ≤ off ∧ off < 0x2E0 then updPwr s (fun p => { p with scripts := upd p.scripts ((off - 0x200) / 4) (fun _ => v) })
  else s

end Sys2Proof.Machine
end

