-- ==== Sys2Proof/Machine/Selector.lean ====
section
/-! DEFINITION. The always-on supply selector (chapter 03): presence and qualification, failovers, hand-over windows, ride-through,
the log and its registers. -/

namespace Sys2Proof.Machine

open Sys2Proof

/-- The selector changed. -/
def updSel (s : State) (f : Sel → Sel) : State := { s with sel := f s.sel }

/-- The operand names VAON_A, VAON_B. -/
def hasA : SelIn → Bool
  | .b => false
  | _ => true

def hasB : SelIn → Bool
  | .a => false
  | _ => true

/-- Codes of log entries (R115). -/
def hoFailAB : BitVec 4 := 2
def hoFailBA : BitVec 4 := 3
def hoReturn : BitVec 4 := 4
def hoRide : BitVec 4 := 5

/-- The selected input is present; the other is. -/
def selPres (x : Sel) : Bool := if x.sel then x.bPres else x.aPres

def otherPres (x : Sel) : Bool := if x.sel then x.aPres else x.bPres

/-- The window that is open closes: its entry's `OPEN` clears and `BOUNCE` stands (R106, R119). -/
def closeWin (x : Sel) : Sel :=
  match x.win with
  | some k => { x with win := none, winOff := false, log := upd x.log k (fun e => { e with opn := false }) }
  | none => { x with winOff := false }

/-- An entry is written at `HEAD` (R119, R120). When it replaces the entry of the open window, that window goes on unlogged
(DEDUCED, log 66). -/
def writeLog (x : Sel) (e : LogEntry) : Sel :=
  { x with log := upd x.log x.head (fun _ => e), head := (x.head + 1) % 8, count := Nat.min 8 (x.count + 1),
           lost := x.lost || x.count == 8, winOff := x.winOff || x.win == some x.head,
           win := if x.win == some x.head then none else x.win }

/-- A log entry of an event, which sets the hand-over interrupt source; in OFF none is written (R108, R117). -/
def logEvent (s : State) (stamp : Stamp) (opn : Bool) (code : BitVec 4) : State :=
  if inOff s then s
  else
    let x := s.sel
    raiseInt (stamped (updSel s (fun y => writeLog y ⟨stamp, 0, opn, code, x.aPres, x.bPres, x.sel⟩))) intHandover

/-- A switch to the other input: the open window closes, `TOTAL` counts it outside OFF. -/
def switchTo (s : State) (sel : Bool) : State :=
  updSel s (fun x => { closeWin x with sel, gap := none, total := if inOff s then x.total else satInc 0xFFFF x.total })

/-- A failover (R102, R106): its window opens. -/
def failover (s : State) : State :=
  let k := s.sel.head
  let code := if s.sel.sel then hoFailBA else hoFailAB
  let s := switchTo s (!s.sel.sel)
  let t := logEvent s (now s) true code
  updSel t (fun x => if inOff s then { x with winOff := true } else { x with win := some k })

/-- INPUT_PRESENT (R98, R101, R107, R117): a cold start, a bounce of the departed input, the end of a ride-through, a failover to
the input that returned first. With `lost` the input to which the selector would switch fails again before its switch closes: that
switch is abandoned with no FAIL entry, and R105 applies from then on (R121). -/
def execInputPresent (i : SelIn) (s : State) (lost : Bool := false) : Host.Outcome State Fault Refusal :=
  let x := s.sel
  let a := hasA i && !x.aPres
  let b := hasB i && !x.bPres
  if !a && !b then .next s
  else if !x.chosen then .next (updSel s (fun y => coldStart { y with aPres := y.aPres || a, bPres := y.bPres || b }))
  else
    let s := instant s
    let back := if x.sel then a else b
    let s := updSel s (fun y => { y with aPres := y.aPres || a, bPres := y.bPres || b, aQual := y.aQual && !a, bQual := y.bQual && !b })
    let s := match x.win with
      | some k => if back then updSel s (fun y => { y with log := upd y.log k (fun e => { e with bounce := satInc 255 e.bounce }) }) else s
      | none => s
    let s := match x.gap with
      | some t => logEvent (updSel s (fun y => { y with gap := none })) t false hoRide
      | none => s
    if selPres s.sel then .next s
    else if lost then
      let s := instant s
      .next (updSel s (fun y => { y with aPres := false, bPres := false, gap := some (now s) }))
    else .next (failover s)

/-- INPUT_FAIL (R98, R102, R105): a failover when the selected input fails and the other is present; with no input left the
capacitor carries VAON_OUT. -/
def execInputFail (i : SelIn) (s : State) : Host.Outcome State Fault Refusal :=
  let x := s.sel
  let a := hasA i && x.aPres
  let b := hasB i && x.bPres
  if !a && !b then .next s
  else
    let s := instant s
    let s := updSel s (fun y => { y with aPres := y.aPres && !a, bPres := y.bPres && !b, aQual := y.aQual && !a, bQual := y.bQual && !b })
    if selPres s.sel || !s.sel.chosen then .next s
    else if otherPres s.sel then .next (failover s)
    else .next (updSel s (fun y => { y with gap := some (y.gap.getD (now s)) }))

/-- INPUT_QUALIFIED (R99, R103): a qualified VAON_A takes over from VAON_B. Where VAON_A fails before its switch closes, the switch is
abandoned and no entry is written; where VAON_B fails at the same moment, the one switch is a failover, logged as FAIL_B_TO_A (R121).
The stamp of RETURN_TO_A is the moment of qualification, for no comparator crossing occurs then (R118; DESIGN CHOICE, log 85). -/
def execInputQualified (i : SelIn) (s : State) (r : QualRace := .alone) : Host.Outcome State Fault Refusal :=
  let x := s.sel
  let a := hasA i && x.aPres && !x.aQual
  let b := hasB i && x.bPres && !x.bQual
  if !a && !b then .next s
  else
    let s := updSel (instant s) (fun y => { y with aQual := y.aQual || a, bQual := y.bQual || b })
    if s.sel.sel && s.sel.aQual && s.sel.chosen then
      match r with
      | .alone =>
        let s := switchTo s false
        .next (logEvent s (now s) false hoReturn)
      | .aFails => .next (updSel s (fun y => { y with aPres := false, aQual := false }))
      | .bFails => .next (failover (updSel s (fun y => { y with bPres := false, bQual := false })))
    else .next s

/-- HANDOVER_WINDOW_CLOSE (R106). -/
def execHandoverWindowClose (s : State) : Host.Outcome State Fault Refusal := .next (updSel s closeWin)

/-- A write of `PMU_HO_CTRL`: `LOST` is W1C, `ACK` from 1 to 8 reduces `COUNT`. -/
def hoCtrlWrite (v : Word) (s : State) : State :=
  let n := bits v 11 8
  updSel s (fun x => { x with lost := x.lost && !bit v 3, count := if 1 ≤ n ∧ n ≤ 8 then x.count - n else x.count })

/-- The event word of an entry. -/
def LogEntry.event (e : LogEntry) : Word :=
  mkWord [(30, 2, e.stamp.qual.toNat), (16, 8, e.bounce), (8, 1, b2n e.opn), (4, 4, e.code.toNat), (3, 1, b2n e.aPres),
    (2, 1, b2n e.bPres), (0, 1, b2n e.sel)]

/-- A read of the selector's registers in the I1 window; none: nothing is mapped there. -/
def selRead (s : State) (off : Nat) : Option Word :=
  let x := s.sel
  if off = 0x100 then
    some (mkWord [(5, 1, b2n (x.win.isSome || x.winOff)), (4, 1, b2n x.bQual), (3, 1, b2n x.aQual), (2, 1, b2n x.bPres),
      (1, 1, b2n x.aPres), (0, 1, b2n x.sel)])
  else if off = 0x104 then some (mkWord [(16, 16, x.total), (4, 4, x.count), (3, 1, b2n x.lost), (0, 3, x.head)])
  else if 0x110 ≤ off ∧ off < 0x190 ∧ off % 4 = 0 then
    let e := nth x.log ((off - 0x110) / 16) .empty
    some (match off / 4 % 4 with
      | 0 => BitVec.ofNat 32 e.stamp.dt
      | 1 => BitVec.ofNat 32 (e.stamp.dt / 2 ^ 32)
      | 2 => e.event
      | _ => 0)
  else none

end Sys2Proof.Machine
end

