-- ==== Sys2Proof/Machine/LifeCycle.lean ====
section
/-! DEFINITION. The life cycle (chapter 16): the two-write sequence, transitions with their wipes and fuses, keys, the debug
enable, the test access port. -/

namespace Sys2Proof.Machine

open Sys2Proof

/-! ### `LC_CMD` and the two-write sequence (R635, R636) -/

/-- Fault codes (R586, R654). -/
def cLcFuse : Byte := 0x40
def cKeyFormat : Byte := 0x42
def cKeyFuse : Byte := 0x43
def cLcWipe : Byte := 0x44

/-- Fields of `LC_CMD`. -/
def lcKey (v : Word) : Nat := bits v 31 16
def lcCode (v : Word) : Nat := bits v 15 12
def lcIndex (v : Word) : Nat := bits v 9 8
def lcEnc (v : Word) : Bool := bit v 4
def lcTarget (v : Word) : BitVec 2 := BitVec.ofNat 2 (bits v 1 0)

/-- The named fields of bits 15 to 0. -/
def lcFields (v : Word) : BitVec 16 := BitVec.ofNat 16 (v.toNat &&& 0xF313)

/-- A life-cycle command has ended: `RESULT`, `CASE`, the interrupt source (06 R242). -/
def lcEnd (s : State) (res cas : Nat) : State := raiseInt (updLc s (fun l => { l with op := .none, result := res, cas })) intCapsule

/-- A refusal changes nothing but `RESULT` and `CASE`. -/
def lcRefuse (s : State) (cas : Nat) : State := raiseInt (updLc s (fun l => { l with result := 2, cas })) intCapsule

/-- Cases 1 and 2 of R636 (DEDUCED, log 58). -/
def lcBusy (s : State) : Option Nat :=
  if !(s.pwr.st == .run && s.pwr.seq == .stable && supReady s) then some 1
  else if s.cap.inst.isSome || s.cap.swap.isSome || s.lc.op != .none then some 2
  else none

/-- Case 3. -/
def lcArmed (s : State) : Option Nat := if s.hp.armed && !s.hp.hold then some 3 else none

/-- A signing key is valid. -/
def anySig (s : State) : Bool := s.fuses.sig.any (keyValid s)

/-- The first condition that refuses a transition (R636). -/
def transitionRefusal (s : State) (tgt : BitVec 2) : Option Nat :=
  (lcBusy s).orElse fun _ => (lcArmed s).orElse fun _ =>
    if tgt.toNat ≤ (life s).code then some 4
    else if tgt == 2 && !anySig s then some 5
    else none

/-! ### Transitions (R637 to R640) -/

/-- T1: admission closed, jobs discarded, every island but I0, I1, I2, I57 and I58 held in reset. T2 starts its wipes (DEDUCED, log 57). -/
def startTransition (s : State) (tgt : BitVec 2) : State :=
  let wipes := allWipes s
  let s := unitsWarm (updPwr s (fun p => { p with admission := false, supRdy := false }))
  let s := { s with
    outstanding := []
    isl := s.isl.zipIdx.map (fun x =>
      if x.2 ≤ 2 || x.2 == 57 || x.2 == 58 || islAbsent s x.2 then x.1 else { x.1 with epoch := x.1.epoch + 1, held := true })
    wiping := wipes }
  updLc (updClk s (fun c => { c with islBusy := [] })) (fun l => { l with op := .wiping tgt false, cas := 0 })

/-- What a wipe outside a life-cycle transition leaves (05 R189, R190): zero data and valid check bits. The rules, the sediment and the
replay buffers of a domain that powers up start empty, and may be in use before this. -/
def powerWipe (s : State) (m : WipeMem) : State :=
  match m with
  | .hpRules => s
  | .sed => clearEcc s 0x20000000 0x20200000
  | .slp0 => s
  | .slp1 => s
  | m => wipeMem s m

/-- WIPE_DONE (05 R189, R191): the memory is written and served again. In a wipe of a transition and an error on read-back stops the transition before T3 (R639). After the last wipe T3 begins, or T4. -/
def execWipeDone (m : WipeMem) (eccError : Bool) (s : State) : Host.Outcome State Fault Refusal :=
  if !s.wiping.contains m then .next s
  else
    let t := { s with wiping := s.wiping.filter (· != m) }
    match s.lc.op with
    | .wiping tgt bad =>
      let t := wipeMem t m
      let t := if eccError && !bad then deviceFault (instant t) cLcWipe (BitVec.ofNat 8 (wipeIsl m)) 58 15 else t
      let bad := bad || eccError
      if !t.wiping.isEmpty then .next (updLc t (fun l => { l with op := .wiping tgt bad }))
      else if bad then .next (startWarm (updLc t (fun l => { l with op := .warm false })) rcLife)
      else .next (updLc t (fun l => { l with op := .blowing tgt }))
    | _ => .next (powerWipe t m)

/-- LC_FUSES_BLOWN (R637 T3, R654): the fuses of the new state are blown in order, `bad` naming the one of them that fails;
those before it stay blown. Then T4. -/
def execLcFusesBlown (bad : Option Nat) (s : State) : Host.Outcome State Fault Refusal :=
  match s.lc.op with
  | .blowing tgt =>
    let todo := (lcBits tgt).filter (lcIntact s.fuses)
    let done := match bad with
      | some i => todo.take i
      | none => todo
    let fs := done.foldl lcBlow s.fuses
    let s := { s with fuses := fs }
    if done.length = todo.length then
      .next (startWarm (updLc { s with boot := { s.boot with lcNow := fs.lcf } } (fun l => { l with op := .warm true })) rcLife)
    else
      let s := deviceFault (instant s) cLcFuse (if todo.getD done.length 0 = 3 then 2 else 1) 58 15
      .next (startWarm (updLc s (fun l => { l with op := .warm false })) rcLife)
  | _ => .next s

/-! ### Keys (R641 to R647) -/

/-- A key slot. -/
def keySlot (s : State) (enc : Bool) (i : Nat) : KeySlot := nth (if enc then s.fuses.enc else s.fuses.sig) i .blank

/-- Bytes of a key in its source. -/
def keyLen (enc : Bool) : Nat := if enc then 32 else 64

/-- Programming is refused without a case: the slot is not empty, or the source does not lie in TSR (R643, R644; DEDUCED, log 39). -/
def keyprogBad (s : State) (enc : Bool) (i : Nat) : Bool :=
  let k := keySlot s enc i
  let a := s.lc.ksrc.toNat
  k.bits != 0 || k.valid || k.revoked || decide (a < 0x10000000) || decide (0x10800000 < a + keyLen enc)

/-- The check of the key: on the curve, or not all zero (R643). -/
def keyCheck (enc : Bool) (bs : List Byte) : Bool := if enc then fromBe bs != 0 else ecOn (fromBe (bs.take 32)) (fromBe (bs.drop 32))

/-- KEYPROG accepted: the key is read from its source. -/
def startKeyprog (s : State) (enc : Bool) (i : Nat) : State :=
  let bs := readBytes s s.lc.ksrc.toNat (keyLen enc)
  updLc s (fun l => { l with op := .keyprog enc i (keyCheck enc bs) (BitVec.ofNat 512 (fromBe bs)), cas := 0 })

/-- KEYPROG_DONE (R643, R647): the key is blown and read back, `VALID` is blown, the source zeroed; a failed check changes no
fuse, a mismatch leaves some of the bits (DESIGN CHOICE, log 35) and blows `REVOKE`. -/
def execKeyprogDone (e : BlowEnd) (s : State) : Host.Outcome State Fault Refusal :=
  match s.lc.op with
  | .keyprog enc i good k =>
    let t := zeroBytes s s.lc.ksrc.toNat (keyLen enc)
    if !good then .next (lcEnd (deviceFault (instant t) cKeyFormat (if enc then 2 else 1) 58 15) 3 0)
    else match e with
      | .good => .next (lcEnd (updKey t enc i (fun x => { x with bits := k, valid := true })) 1 0)
      | .mismatch =>
        let t := updKey { t with freeK := t.freeK + 1 } enc i (fun x => { x with bits := partBits k s.freeK, revoked := true })
        .next (lcEnd (deviceFault (instant t) cKeyFuse (BitVec.ofNat 8 (i + (if enc then 16 else 0))) 58 15) 3 0)
  | _ => .next s

/-- A revocation would leave no valid signing key in SEALED (R645). -/
def lastKey (s : State) (enc : Bool) (i : Nat) : Bool :=
  life s == .sealed && !enc && !anySig (updKey s false i (fun x => { x with revoked := true }))

/-! ### The second write -/

/-- The operation of a complete sequence. -/
def lcDo (s : State) (v : Word) : State :=
  if lcCode v = 1 then
    match transitionRefusal s (lcTarget v) with
    | some c => lcRefuse s c
    | none => startTransition s (lcTarget v)
  else if lcCode v = 2 then
    match lcBusy s with
    | some c => lcRefuse s c
    | none => if keyprogBad s (lcEnc v) (lcIndex v) then lcRefuse s 0 else startKeyprog s (lcEnc v) (lcIndex v)
  else
    match (lcBusy s).orElse (fun _ => lcArmed s) with
    | some c => lcRefuse s c
    | none =>
      if lastKey s (lcEnc v) (lcIndex v) then lcRefuse s 5
      else lcEnd (updKey s (lcEnc v) (lcIndex v) (fun x => { x with revoked := true })) 1 0

/-- A write of `LC_CMD`: an operation code that is none makes it ignored; KEYPROG is denied in SEALED; the first write opens a
sequence, the second completes it, any other order ends it with case 6 (DEDUCED, log 59). -/
def lcCmdAct (v : Word) : RegAct := fun s =>
  if lcCode v = 0 ∨ 3 < lcCode v then (s, stOk)
  else if lcCode v = 2 ∧ life s = .sealed then (s, stDenied)
  else match s.lc.first with
    | none => if lcKey v = 0x6C3E then (updLc s (fun l => { l with first := some (lcFields v) }), stOk) else (lcRefuse s 6, stOk)
    | some w =>
      let t := updLc s (fun l => { l with first := none })
      if lcKey v = 0x93C1 ∧ lcFields v = w then (lcDo t v, stOk) else (lcRefuse t 6, stOk)

/-- LC_FIRST_KEY. -/
def execLcFirstKey (f : Fr) (v : Word) (s : State) : Host.Outcome State Fault Refusal := .next (wframe f 0x81 v (lcCmdAct v) s)

/-- LC_KEY_TIMEOUT (R635): no second write within 100 ms. -/
def execLcKeyTimeout (s : State) : Host.Outcome State Fault Refusal :=
  match s.lc.first with
  | some _ => .next (lcRefuse (updLc s (fun l => { l with first := none })) 6)
  | none => .next s

/-- TRANSITION. -/
def execTransition (f : Fr) (v : Word) (s : State) : Host.Outcome State Fault Refusal := .next (wframe f 0x81 v (lcCmdAct v) s)

/-- KEYPROG. -/
def execKeyprog (f : Fr) (v : Word) (s : State) : Host.Outcome State Fault Refusal := .next (wframe f 0x81 v (lcCmdAct v) s)

/-- KEYREVOKE. -/
def execKeyrevoke (f : Fr) (v : Word) (s : State) : Host.Outcome State Fault Refusal := .next (wframe f 0x81 v (lcCmdAct v) s)

/-! ### Registers (R654) -/

/-- A bit per key slot that is valid. -/
def keyMap (s : State) (ks : List KeySlot) : Nat := (ks.zipIdx.filter (fun x => keyValid s x.1)).foldl (fun a x => a + 2 ^ x.2) 0

/-- `LC_STATE`. -/
def lcState (s : State) : Word :=
  mkWord [(24, 8, (s.fuses.patch.filter (fun p => p.valid)).length), (20, 4, keyMap s s.fuses.sig), (16, 4, keyMap s s.fuses.enc),
    (15, 1, b2n s.fuses.keykill), (12, 3, s.fuses.lcf.toNat), (11, 1, b2n (s.lc.op != .none)), (8, 3, s.lc.result),
    (4, 4, s.lc.cas), (0, 2, (life s).code)]

/-- `DBG_CTRL`. -/
def dbgCtrl (s : State) : Word :=
  mkWord [(8, 8, s.lc.dbgDeny), (2, 1, b2n (life s == .sealed || life s == .retired)), (1, 1, b2n s.lc.dbgExtest), (0, 1, b2n s.lc.dbgEn)]

/-- A write of `DBG_CTRL` (DEDUCED, log 60). -/
def dbgCtrlAct (v : Word) : RegAct := okAct (fun s =>
  if bits v 31 16 = 0xDB00 then updLc s (fun l => { l with dbgEn := false, dbgExtest := false })
  else updLc s (fun l => { l with dbgEn := l.dbgEn || bits v 31 16 == 0xDB6E, dbgExtest := bit v 1 }))

/-- DBG_ENABLE. -/
def execDbgEnable (f : Fr) (v : Word) (s : State) : Host.Outcome State Fault Refusal := .next (wframe f 0x87 v (dbgCtrlAct v) s)

/-- DBG_DISABLE. -/
def execDbgDisable (f : Fr) (v : Word) (s : State) : Host.Outcome State Fault Refusal := .next (wframe f 0x87 v (dbgCtrlAct v) s)

/-- A read of `LC_KSRC` or `LC_PUBKEY`, word j of a key its bytes 4j to 4j + 3 in key order; none: neither. -/
def lcRead (s : State) (off : Nat) : Option Word :=
  if off = 0x200 then some s.lc.ksrc
  else if 0x400 ≤ off ∧ off < 0x500 ∧ off % 4 = 0 then
    let k := (keySlot s false ((off - 0x400) / 64)).bits.toNat
    let j := off % 64 / 4
    some (BitVec.ofNat 32 (fromLe ((leBytes 64 k).reverse.drop (4 * j) |>.take 4)))
  else none

/-- A write of `LC_KSRC`. -/
def ksrcWrite (v : Word) (s : State) : State := updLc s (fun l => { l with ksrc := mkWord [(6, 26, bits v 31 6)] })

/-! ### Test access port (R650 to R653, R633, R634, 02 R76) -/

/-- The port answers: DBG_TRST_N is high, PD23 powered, its pads not latched, I63 not in reset (a transition answers with DENIED,
R638; 02 R76). -/
def tapAnswers (s : State) : Bool :=
  !s.jtag.trst && pdPowered s 23 && !s.pwr.pads.getLsbD 7 && (!(islSt s 63).held || inTransition s) && !s.boot.por

/-- The instruction is permitted (R650, R633). -/
def tapPermits (s : State) (code : Nat) : Bool :=
  let open_ := !s.boot.mfg && (life s == .blank || life s == .develop) && s.lc.dbgEn
  if code = 0 then open_ && s.lc.dbgExtest
  else if code = 1 ∨ code = 3 then open_
  else if code = 8 then s.boot.mfg
  else code == 2 || code == 15

/-- The port changed. -/
def updTap (s : State) (f : Jtag → Jtag) : State := { s with jtag := f s.jtag }

/-- An instruction is loaded; one that is not permitted, or reserved, acts as BYPASS and is counted. EXTEST drives balls while it
is selected only. -/
def tapSelect (s : State) (code : Nat) : State :=
  let ok := tapPermits s code
  let s := updTap s (fun j => { j with ir := BitVec.ofNat 4 (if ok then code else 15), driven := if ok && code == 0 then j.driven else [] })
  if ok then s else updLc s (fun l => { l with dbgDeny := satInc 0xFF l.dbgDeny })

/-- The boundary-scan cell's ball is connected on this assembly (02 R70, R96). -/
def cellThere (s : State) (c : Nat × Bool) : Bool := ballConnected (s.fuses.clay != 0) s.fuses.iot c.1

/-- The cell observes only: that of HALT_A_N, HALT_B, RESET_N, TEST_EN or a strap (R651) (ball numbers: DEDUCED, log 60). -/
def observeOnly (c : Nat × Bool) : Bool := ((ballSignal c.1).map Signal.observes).getD true

/-- IDCODE. -/
def execIdcode (s : State) : Host.Outcome State Fault Refusal :=
  if tapAnswers s then .next (updTap (tapSelect s 2) (fun j => { j with dr := 0x4F580B05 })) else .next s

/-- BYPASS, or any other instruction code loaded with no scan of a data register. -/
def execBypass (code : BitVec 4) (s : State) : Host.Outcome State Fault Refusal :=
  if tapAnswers s then .next (updTap (tapSelect s code.toNat) (fun j => { j with dr := 0 })) else .next s

/-- EXTEST: the balls are observed (DESIGN CHOICE, log 8), then the cells drive, but those that observe only and those of balls
with no connection on the assembly. -/
def execExtest (cells : List (Nat × Bool)) (s : State) : Host.Outcome State Fault Refusal :=
  if !Instr.wf (.extest cells) then .fault .illFormed
  else if tapAnswers s then
    let t := tapSelect s 0
    if tapPermits s 0 then
      .next (updTap t (fun j => { j with scanK := j.scanK + 1, driven := cells.filter (fun c => cellThere s c && !observeOnly c) }))
    else .next t
  else .next s

/-- SAMPLE/PRELOAD: the balls are observed, the cells preloaded. -/
def execSamplePreload (cells : List (Nat × Bool)) (s : State) : Host.Outcome State Fault Refusal :=
  if !Instr.wf (.samplePreload cells) then .fault .illFormed
  else if tapAnswers s then
    let t := tapSelect s 1
    if tapPermits s 1 then .next (updTap t (fun j => { j with scanK := j.scanK + 1, preload := cells.filter (cellThere s) })) else .next t
  else .next s

/-- DBGACC: Capture-DR loads the last access's data and status, Update-DR starts an access. While one is under way another is not
started (DESIGN CHOICE, log 40). -/
def execDbgacc (dr : BitVec 69) (s : State) : Host.Outcome State Fault Refusal :=
  if !tapAnswers s then .next s
  else
    let t := tapSelect s 3
    if !tapPermits s 3 then .next t
    else
      let op := bits dr 68 67
      let addr := mkWord [(2, 30, bits dr 66 37)]
      let data := BitVec.ofNat 32 (bits dr 34 3)
      .next (updTap t (fun j =>
        let busy := j.acc.isSome
        let cap := BitVec.ofNat 106 (j.accData.toNat * 8 + (if busy then stBusy else j.accStat.toNat))
        { j with dr := cap, acc := if !busy && (op == 1 || op == 2) then some (op == 2, addr, data) else j.acc }))

/-- PATCHPROG (R634): a record is read, or an empty slot's programming starts. -/
def execPatchprog (dr : BitVec 106) (s : State) : Host.Outcome State Fault Refusal :=
  if !tapAnswers s then .next s
  else
    let t := tapSelect s 8
    if !tapPermits s 8 then .next t
    else
      let op := bits dr 105 104
      let i := bits dr 103 99
      let rec_ := BitVec.ofNat 96 (bits dr 98 3)
      let slot := nth s.fuses.patch i ⟨0, false⟩
      .next (updTap t (fun j =>
        let j := { j with dr := BitVec.ofNat 106 (j.patchData.toNat * 8 + j.patchStat.toNat) }
        if j.patch.isSome then j
        else if op = 1 then { j with patchData := slot.bits, patchStat := 0 }
        else if op = 2 then
          (if slot.bits == 0 && !slot.valid then { j with patch := some (i, rec_), patchStat := 4 } else { j with patchStat := 1 })
        else j))

/-- PATCHPROG_DONE: the record reads back and becomes valid, or a mismatch leaves some of its bits (DESIGN CHOICE, log 35). -/
def execPatchprogDone (e : BlowEnd) (s : State) : Host.Outcome State Fault Refusal :=
  match s.jtag.patch with
  | none => .next s
  | some (i, r) =>
    let part := (partBits (r.setWidth 512) s.freeK).setWidth 96
    let set := fun (b : BitVec 96) (v : Bool) => { s.fuses with patch := upd s.fuses.patch i (fun _ => ⟨b, v⟩) }
    match e with
    | .good => .next (updTap { s with fuses := set r true } (fun j => { j with patch := none, patchData := r, patchStat := 0 }))
    | .mismatch =>
      .next (updTap { s with fuses := set part false, freeK := s.freeK + 1 }
        (fun j => { j with patch := none, patchData := part, patchStat := 2 }))

/-- TEST_ACCESS_PORT_RESET (02 R76): DBG_TRST_N goes low and holds the port in reset, IDCODE selected and no ball driven, or high
and frees it. During power-on reset the ball is ignored: only its level is noted, for the time after the release. -/
def execTestAccessPortReset (s : State) (low : Bool := true) : Host.Outcome State Fault Refusal :=
  .next (updTap s (fun j =>
    if low && !s.boot.por then { j with trst := true, ir := 2, dr := 0, preload := [], driven := [] } else { j with trst := low }))

end Sys2Proof.Machine
end

