-- ==== Sys2Proof/Machine/Window.lean ====
section
/-! DEFINITION. The internal address map as the host sees it (01 R39 to R47, R63, R191, R710, 16 R648): status, reads and writes of a
word, the prefetch and the posted writes of the indirect window (06 R243 to R251), debug accesses (16 R652, R653), and the commands
that are window writes of one register. -/

namespace Sys2Proof.Machine

open Sys2Proof

/-! ### Block registers -/

/-- The word at an offset of an island's window from 0x10 upward; none: nothing is mapped there (01 R710). -/
def blockRead (s : State) (n off : Nat) : Option Word :=
  if n = 1 then
    (selRead s off).orElse fun _ => (i1Read s off).orElse fun _ =>
      if off = 0x1A0 then some (rstCause s)
      else if off = 0x1A4 then some 0
      else if off = 0x1A8 then some (mkWord [(9, 1, b2n s.clk.islRefused), (8, 1, b2n (!s.clk.islBusy.isEmpty))])
      else if off = 0x1B0 then some (clkStatus s)
      else none
  else if 3 ≤ n ∧ n ≤ 18 then chRead s (n - 3) off
  else if n = 19 then snsRead s off
  else if n = 20 then sceRead s off
  else if n = 24 then qmRead s off
  else if n = 25 then scRead s off
  else if n = 26 then ldgRead s off
  else if n = 51 then (engRead s .su off).orElse fun _ => satRead s off
  else if n = 55 then slpBlockRead s .slp0 off
  else if n = 58 then (i58Read s off).orElse fun _ => lcRead s off
  else if n = 62 then
    (slpBlockRead s .slp1 off).orElse fun _ => (iotRead s off).orElse fun _ =>
      if 0x400 ≤ off ∧ off < 0x480 then csiRead s .r0 (off - 0x400)
      else if 0x480 ≤ off ∧ off < 0x500 then csiRead s .r1 (off - 0x480)
      else none
  else match islEng n with
    | some e => engRead s e off
    | none => none

/-- A write of a mapped word; read-only and reserved words take none. -/
def blockWrite (n off : Nat) (v : Word) : RegAct := fun s =>
  if n = 1 then
    if off = 0x104 then (hoCtrlWrite v s, stOk)
    else if off = 0x1A4 then rstCtrlAct v s
    else if off = 0x1A8 then islRstAct v s
    else if off = 0x1B0 then clkStatusAct v s
    else (i1Write off v s, stOk)
  else if 3 ≤ n ∧ n ≤ 18 then chWrite (n - 3) off v s
  else if n = 19 then snsWrite off v s
  else if n = 20 then sceWrite off v s
  else if n = 24 then qmWrite off v s
  else if n = 51 then (if (satRead s off).isSome then satWrite off v s else (s, stOk))
  else if n = 55 then slpBlockWrite .slp0 off v s
  else if n = 58 then (if off = 0x200 then (ksrcWrite v s, stOk) else if (i58Read s off).isSome then i58Write off v s else (s, stOk))
  else if n = 62 then
    if (slpBlockRead s .slp1 off).isSome then slpBlockWrite .slp1 off v s
    else if (iotRead s off).isSome then iotWrite off v s
    else if off < 0x480 then csiWrite .r0 (off - 0x400) v s
    else csiWrite .r1 (off - 0x480) v s
  else (s, stOk)

/-- The header registers of an island (01 R46). -/
def headerRead (s : State) (n off : Nat) : Word :=
  if off = 0 then mkWord [(8, 5, islPd n), (0, 6, n)]
  else if off = 4 then mkWord [(7, 1, b2n (islAbsent s n)), (4, 3, islState s n), (0, 4, (islSt s n).epoch.toNat)]
  else if off = 8 then mkWord [(0, 16, (islSt s n).stale)]
  else mkWord [(0, 16, (islSt s n).resets)]

/-! ### Decoding (01 R39) -/

/-- The regions of the map. -/
inductive MapRegion where
  | rom
  | tsr (pd : Nat)
  | ls (n : Nat)
  | sed
  | sce (model : Bool)
  | qdt
  | header (n off : Nat)
  | block (n off : Nat)
  | clay (t : Tile)
  | none
  deriving DecidableEq, Repr

/-- The region of an address. -/
def regionOf (a : Nat) : MapRegion :=
  if a < 0x40000 then .rom
  else if 0x10000000 ≤ a ∧ a < 0x10800000 then .tsr (if a < 0x10400000 then 14 else 15)
  else if 0x18000000 ≤ a ∧ a < 0x18100000 then .ls ((a - 0x18000000) / 0x40000)
  else if 0x20000000 ≤ a ∧ a < 0x20200000 then .sed
  else if 0x28000000 ≤ a ∧ a < 0x28080000 then .sce (decide (0x28001000 ≤ a) && decide (a < 0x2807E000))
  else if 0x30000000 ≤ a ∧ a < 0x30040000 then .qdt
  else if 0x40000000 ≤ a ∧ a < 0x40400000 then
    (if a % 0x10000 < 0x10 then .header ((a - 0x40000000) / 0x10000) (a % 0x10000)
     else .block ((a - 0x40000000) / 0x10000) (a % 0x10000))
  else if 0x80000000 ≤ a ∧ a < 0xA0000000 then .clay .t0
  else if 0xA0000000 ≤ a ∧ a < 0xC0000000 then .clay .t1
  else .none

/-- Base of the deposit area: below it lie the strata and the open entries, which take no window write (10 R400, R402). -/
def sedDeposit : Nat := 0x200C0000

/-- The region's domain. -/
def regionPd : MapRegion → Nat
  | .rom => 5
  | .tsr pd => pd
  | .ls n => 10 + n
  | .sed => 17
  | .sce _ => 4
  | .qdt => 8
  | .header _ _ => 0
  | .block n _ => islPd n
  | .clay t => tilePd t
  | .none => 0

/-- The life-cycle state denies the access (16 R648). -/
def winDenied (s : State) (a : Nat) (wr : Bool) : Bool :=
  let st := life s
  if st == .blank || st == .develop then false
  else
    let dead := st == .retired
    match regionOf a with
    | .rom => dead
    | .qdt => dead
    | .sed => dead
    | .sce model => dead || model
    | .tsr _ => dead || !wr || slotRegion s a
    | .ls _ => dead || !wr || slotRegion s a
    | .clay _ => dead || !wr || slotRegion s a
    | .block n off => dead || n == 63 || (wr && n == 58 && off == 0x200)
    | .header _ _ => false
    | .none => false

/-- The memory is being wiped (05 R191). -/
def regionWiped (s : State) (r : MapRegion) : Bool :=
  match r with
  | .tsr _ => s.wiping.contains .tsr
  | .ls _ => s.wiping.contains .teLs
  | .sed => s.wiping.contains .sed
  | .sce _ => s.wiping.contains .sce
  | .qdt => s.wiping.contains .qdt
  | .clay .t0 => s.wiping.contains .clay0
  | .clay _ => s.wiping.contains .clay1
  | _ => false

/-- The region does not exist on this part: an absent tile, a store fused off (00 R6, R7, 01 R42, R710). -/
def regionAbsent (s : State) (r : MapRegion) : Bool :=
  match r with
  | .ls n => decide (nTe s ≤ n)
  | .clay t => !tilePresent s t
  | .none => true
  | _ => false

/-- The status of an access, before the register itself answers; `late` says that it was made after AP1 to a region that the
target state removes or retains (R63) (DEDUCED, log 62). -/
def winStatus (s : State) (a : Nat) (wr late : Bool) : Nat :=
  let r := regionOf a
  if inTransition s then stDenied
  else if regionAbsent s r then stAddr
  else if winDenied s a wr then stDenied
  else match r with
    | .header _ _ => stOk
    | .block n off =>
      if islAbsent s n || (blockRead s n off).isNone then stAddr
      else if late || pdDark s (islPd n) then stOff
      else stOk
    | _ =>
      if wr && (r == .rom || r == .qdt || (r == .sed && decide (a < sedDeposit))) then stAddr
      else if late || pdDark s (regionPd r) || regionWiped s r then stOff
      else if !wr && eccHit s a 4 then stEcc
      else stOk

/-- The word at an address. -/
def winData (s : State) (a : Nat) : Word :=
  match regionOf a with
  | .header n off => headerRead s n off
  | .block n off => (blockRead s n off).getD 0
  | .qdt => qdtWord s a
  | _ => readWord s a

/-- A read of a word: its status, and 0 unless that is OK (06 R216). -/
def winRead (s : State) (a : Nat) (late : Bool) : Nat × Word :=
  let st := winStatus s a false late
  (st, if st = stOk then winData s a else 0)

/-- A write of a word. -/
def winWrite (a : Nat) (v : Word) (late : Bool) : RegAct := fun s =>
  let st := winStatus s a true late
  if st ≠ stOk then (s, st)
  else match regionOf a with
    | .header _ _ => (s, stOk)
    | .block n off => blockWrite n off v s
    | _ => (writeWord s a v, stOk)

/-- The access is one that R63 turns away when it is made now. -/
def lateNow (s : State) (a : Nat) : Bool :=
  match regionOf a with
  | .header _ _ => false
  | .none => false
  | r => removedByEntry s (regionPd r)

/-- The access waits: its island is held in reset (05 R713) or stopped in a relock of PLL0 (04 R154), or the tile's link is not UP
(17 R658, R666). An access that is turned away whatever its island does, to an address where nothing is mapped, to a domain that is
off, waits for nothing. -/
def winWaits (s : State) (a : Nat) (wr late : Bool) : Bool :=
  let st := winStatus s a wr late
  let held := match addrIsl a with
    | some i => !islRuns s i && !islAbsent s i
    | none => false
  let link := match regionOf a with
    | .clay t => tilePresent s t && pdPowered s (tilePd t) && (tileSt s t).link != .up
    | _ => false
  (st == stOk || st == stEcc) && (held || link)

/-! ### The indirect window (06 R243 to R251) -/

/-- A prefetch of the word at `CP_IA_ADDR` is due (R244). It starts, an access made then (01 R63), once every posted write has completed. -/
def startPrefetch (s : State) : State :=
  updWin s (fun w => { w with pbusy := true, ppeer := false, plate := w.posted.isEmpty && lateNow s w.addr.toNat })

/-- The address advances with `INC` = 1, which starts a prefetch (R246). -/
def winAdvance (s : State) : State := if s.win.inc then startPrefetch (updWin s (fun w => { w with addr := w.addr + 4 })) else s

/-- A write of `CP_IA_ADDR` (R243). -/
def iaAddrAct (v : Word) : RegAct := okAct (fun s => startPrefetch (updWin s (fun w => { w with addr := mkWord [(2, 30, bits v 31 2)] })))

/-- CP_IA_ADDR_WRITE. -/
def execCpIaAddrWrite (f : Fr) (v : Word) (s : State) : Host.Outcome State Fault Refusal := .next (wframe f 0x30 v (iaAddrAct v) s)

/-- What a read of `CP_IA_DATA` returns (R245). -/
def iaDataView (s : State) : Nat × Word :=
  if s.win.pbusy then (stBusy, 0)
  else if inTransition s then (stDenied, 0)
  else (s.win.rstat.toNat, s.win.pdata)

/-- Its side effects (R246, R249). -/
def iaDataStep (s : State) : State :=
  let r := iaDataView s
  if s.win.pbusy then s else winAdvance (updWin s (fun w => { w with last := r.2, laddr := w.addr }))

/-- A write of `CP_IA_DATA` is posted; a third is discarded with BUSY (R247). -/
def iaDataAct (seq : BitVec 4) (v : Word) : RegAct := fun s =>
  if 2 ≤ s.win.posted.length then (s, stBusy)
  else (winAdvance (updWin s (fun w =>
    { w with posted := w.posted ++ [⟨w.addr, v, seq, lateNow s w.addr.toNat, false⟩] })), stOk)

/-- CP_IA_DATA_WRITE. -/
def execCpIaDataWrite (f : Fr) (v : Word) (s : State) : Host.Outcome State Fault Refusal := .next (wframe f 0x31 v (iaDataAct f.seq v) s)

/-- WINDOW_PREFETCH_DONE (R245). -/
def execWindowPrefetchDone (s : State) : Host.Outcome State Fault Refusal :=
  let w := s.win
  let a := w.addr.toNat
  if !w.pbusy || !w.posted.isEmpty || (winWaits s a false w.plate && !w.ppeer) then .next s
  else
    let r := if w.ppeer then (stPeer, 0) else winRead s a w.plate
    .next (updWin s (fun x => { x with pbusy := false, ppeer := false, plate := false, pdata := r.2, rstat := BitVec.ofNat 3 r.1 }))

/-- The effect of a posted write. When its island was reset meanwhile, whether the word was written is open (01 R62, DESIGN CHOICE, log 41). -/
def postedEffect (p : PWrite) (s : State) : State × Nat :=
  if p.peerReset then
    let s := { s with freeK := s.freeK + 1 }
    (if Config.peerWritten (s.freeK - 1) then (winWrite p.addr.toNat p.data p.late s).1 else s, stPeer)
  else winWrite p.addr.toNat p.data p.late s

/-- WINDOW_WRITE_DONE (R248): the oldest posted write completes (DEDUCED, log 63). After the last one a prefetch that is due starts (R244). -/
def execWindowWriteDone (s : State) : Host.Outcome State Fault Refusal :=
  match s.win.posted with
  | [] => .next s
  | p :: rest =>
    if winWaits s p.addr.toNat true p.late && !p.peerReset then .next s
    else
      let r := postedEffect p (updWin s (fun w => { w with posted := rest }))
      if i57Held r.1 then .next r.1
      else
        let t := linkWrite (updWin r.1 (fun w => { w with wstat := BitVec.ofNat 3 r.2 })) 0x31 r.2 p.seq
        if t.win.pbusy && rest.isEmpty then .next (updWin t (fun w => { w with plate := lateNow t w.addr.toNat })) else .next t

/-- A write of index 0x30 to 0x35. -/
def winAct (i : Nat) (seq : BitVec 4) (v : Word) : RegAct :=
  if i = 0x30 then iaAddrAct v
  else if i = 0x31 then iaDataAct seq v
  else if i = 0x32 then okAct (fun s => updWin s (fun w => { w with inc := bit v 0 }))
  else fun s => (s, stOk)

/-- A read of index 0x30 to 0x35 but 0x31. `RSTAT` is the status of the current prefetch: BUSY while that runs (06 R245), DEDUCED
(DEDUCED, log 44). -/
def winReg (s : State) (i : Nat) : Word :=
  let w := s.win
  if i = 0x30 then w.addr
  else if i = 0x32 then mkWord [(0, 1, b2n w.inc)]
  else if i = 0x33 then w.last
  else if i = 0x34 then w.laddr
  else if i = 0x35 then mkWord [(8, 2, w.posted.length), (7, 1, b2n w.pbusy), (3, 3, w.wstat.toNat),
    (0, 3, if w.pbusy then stBusy else w.rstat.toNat)]
  else 0

/-! ### Debug accesses -/

/-- DBGACC_DONE (16 R652, R653): the access has the statuses and permissions of a window access. -/
def execDbgaccDone (s : State) : Host.Outcome State Fault Refusal :=
  match s.jtag.acc with
  | none => .next s
  | some (wr, a, v) =>
    let a := a.toNat
    if winWaits s a wr (lateNow s a) then .next s
    else
      let s := updTap s (fun j => { j with acc := none })
      if wr then
        let r := winWrite a v (lateNow s a) s
        .next (updTap r.1 (fun j => { j with accData := 0, accStat := BitVec.ofNat 3 r.2 }))
      else
        let r := winRead s a (lateNow s a)
        .next (updTap s (fun j => { j with accData := r.2, accStat := BitVec.ofNat 3 r.1 }))

/-! ### Commands that are window writes of one register -/

/-- A window write arrives at its register: the port serves, and the island answers. -/
def winRow (a : Nat) (v : Word) (s : State) : Host.Outcome State Fault Refusal :=
  if cpServes s && !winWaits s a true (lateNow s a) then .next (winWrite a v (lateNow s a) s).1 else .next s

/-- PMU_HO_ACK (03 R115). -/
def execPmuHoAck (n : BitVec 4) (s : State) : Host.Outcome State Fault Refusal := winRow 0x40010104 (BitVec.ofNat 32 (n.toNat * 256)) s

/-- RST_CTRL_WARM (05 R180). -/
def execRstCtrlWarm (v : Word) (s : State) : Host.Outcome State Fault Refusal := winRow 0x400101A4 v s

/-- ISL_RST (05 R182). -/
def execIslRst (v : Word) (s : State) : Host.Outcome State Fault Refusal := winRow 0x400101A8 v s

/-- CHANNEL_ENABLE (08 R336): a write of `CH_CTRL`. -/
def execChannelEnable (n : Fin 16) (v : Word) (s : State) : Host.Outcome State Fault Refusal := winRow (0x40030100 + n.val * 0x10000) v s

/-- CHANNEL_DISABLE: a write of `CH_CTRL`. -/
def execChannelDisable (n : Fin 16) (v : Word) (s : State) : Host.Outcome State Fault Refusal := winRow (0x40030100 + n.val * 0x10000) v s

/-- SP_CFG_WRITE (08 R326). -/
def execSpCfgWrite (k : Fin 24) (v : Word) (s : State) : Host.Outcome State Fault Refusal := winRow (0x40130140 + 4 * k.val) v s

/-- MANUAL_TRANSFER (08 R351, 17 R682): a write of the control register of the front end's unit, or of the I/O tile's. -/
def execManualTransfer (iot : Bool) (v : Word) (s : State) : Host.Outcome State Fault Refusal :=
  winRow (if iot then 0x403E0500 else 0x401301C0) v s

/-- SCE_RUN (10 R388): a write of `SCE_CTRL`. -/
def execSceRun (v : Word) (s : State) : Host.Outcome State Fault Refusal := winRow 0x40140100 v s

/-- QM_STREAM_OPEN (11 R457): a write of `QM_STREAM` with `OP` = OPEN. -/
def execQmStreamOpen (q : BitVec 14) (s : State) : Host.Outcome State Fault Refusal :=
  winRow 0x40180100 (mkWord [(30, 2, 1), (0, 14, q.toNat)]) s

/-- QM_STREAM_CLOSE. -/
def execQmStreamClose (q : BitVec 14) (s : State) : Host.Outcome State Fault Refusal :=
  winRow 0x40180100 (mkWord [(30, 2, 2), (0, 14, q.toNat)]) s

/-- SAT_CNT_WRITE (13 R561). -/
def execSatCntWrite (n : Fin 64) (v : Word) (s : State) : Host.Outcome State Fault Refusal := winRow (0x40330408 + 16 * n.val) v s

/-- CSI_ENABLE (17 R679): a write of `CSI_CTRL`. -/
def execCsiEnable (r : Csi) (v : Word) (s : State) : Host.Outcome State Fault Refusal := winRow (0x403E0400 + csiIx r * 0x80) v s

/-- CSI_FILTER_WRITE (17 R676): a write of the first word of a filter. -/
def execCsiFilterWrite (r : Csi) (fl : Fin 4) (v : Word) (s : State) : Host.Outcome State Fault Refusal :=
  winRow (0x403E0410 + csiIx r * 0x80 + 8 * fl.val) v s

end Sys2Proof.Machine
end

