-- ==== Sys2Proof/Machine/ControlPort.lean ====
section
/-! DEFINITION. The control port (chapter 06): every register by index, read frames with their response, write frames, discarded
frames, doorbells, the fault collector's registers. -/

namespace Sys2Proof.Machine

open Sys2Proof

/-! ### Doorbells (R252 to R255, 04 R139) -/

/-- Results of a doorbell (R255). -/
def dbOk : BitVec 3 := 0
def dbHeld : BitVec 3 := 1
def dbRejQueue : BitVec 3 := 2
def dbRejCount : BitVec 3 := 3
def dbRejFull : BitVec 3 := 4
def dbDiscarded : BitVec 3 := 5

/-- The doorbells changed. -/
def updDb (s : State) (f : Db → Db) : State := { s with db := f s.db }

/-- The last result; a rejection is counted (DEDUCED, log 64). -/
def dbNote (s : State) (r : BitVec 3) (q : BitVec 14) : State :=
  updDb s (fun d =>
    { d with last := r, qid := q, rejCnt := if r = dbRejQueue ∨ r = dbRejCount ∨ r = dbRejFull then satInc 0xFF d.rejCnt else d.rejCnt })

/-- A doorbell takes effect, or is rejected: WP and PP advance, its descriptors come into service. -/
def dbEffect (s : State) (q : BitVec 14) (count : Nat) : State × BitVec 3 :=
  let d := qd s q.toNat
  if d.cls ≠ clsCmd then (dbNote s dbRejQueue q, dbRejQueue)
  else if d.depth < d.diff d.wp d.rp + count then (dbNote s dbRejCount q, dbRejCount)
  else
    let p := d.plus d.wp count
    let s := updQd s q.toNat (fun x => { x with wp := p, pp := p })
    let s := updLdg s (fun l => { l with service := l.service ++ [(q.toNat, p)] })
    (dbNote s dbOk q, dbOk)

/-- A doorbell takes effect now (R254); not during a relock of PLL0, which stops I24 (04 R154). -/
def dbOpen (s : State) : Bool := supReady s && s.pwr.st == .run && !s.clk.relock0

/-- The held doorbells take effect, oldest first (DEDUCED, log 64). -/
def dbDrain (s : State) : List (BitVec 14 × Nat) → State
  | [] => s
  | (q, n) :: r => dbDrain (dbEffect (updDb s (fun d => { d with fifo := r })) q n).1 r

/-- A doorbell write is a HOST wake event below RUN and during an entry (04 R134). -/
def dbWake (s : State) : State :=
  match s.pwr.seq with
  | .stable => if s.pwr.st == .run then s else fireWake s wakeHost false
  | .entry _ _ _ _ => fireWake s wakeHost false
  | .reverse _ _ _ _ => fireWake s wakeHost false
  | _ => s

/-- A write of `CP_DOORBELL`. -/
def doorbellAct (v : Word) : RegAct := fun s =>
  let q := BitVec.ofNat 14 (bits v 13 0)
  let n := bits v 31 16
  if s.pwr.seq == .stable && (s.pwr.st == .watch || s.pwr.st == .hibernate) then (dbWake (dbNote s dbDiscarded q), stOff)
  else if dbOpen s then
    let r := dbEffect (dbDrain s s.db.fifo) q n
    (dbWake r.1, if r.2 = dbOk then stOk else stAddr)
  else if 16 ≤ s.db.fifo.length then (dbWake (dbNote s dbRejFull q), stBusy)
  else (dbWake (dbNote (updDb s (fun d => { d with fifo := d.fifo ++ [(q, n)] })) dbHeld q), stOk)

/-- DOORBELL. -/
def execDoorbell (f : Fr) (v : Word) (s : State) : Host.Outcome State Fault Refusal := .next (wframe f 0x40 v (doorbellAct v) s)

/-- DOORBELL_RELEASE (R254): the oldest held doorbell takes effect. -/
def execDoorbellRelease (s : State) : Host.Outcome State Fault Refusal :=
  match s.db.fifo with
  | [] => .next s
  | (q, n) :: r => if dbOpen s then .next (dbEffect (updDb s (fun d => { d with fifo := r })) q n).1 else .next s

/-- `CP_DB_STAT`. -/
def dbStat (s : State) : Word :=
  mkWord [(24, 8, s.db.rejCnt), (17, 5, s.db.fifo.length), (14, 3, s.db.last.toNat), (0, 14, s.db.qid.toNat)]

/-! ### Fault collector (14 R592) -/

/-- `FLT_POP`: the oldest unread record is discarded. -/
def popAct (v : Word) : RegAct := okAct (fun s =>
  if bit v 0 then { s with flt := { s.flt with recs := s.flt.recs.drop 1 } } else s)

/-- FLT_POP. -/
def execFltPop (f : Fr) (v : Word) (s : State) : Host.Outcome State Fault Refusal := .next (wframe f 0x91 v (popAct v) s)

/-- A read of index 0x90 to 0x96. -/
def fltRead (s : State) (i : Nat) : Word :=
  let c := s.flt
  if i = 0x90 then mkWord [(16, 16, c.total), (0, 6, c.recs.length)]
  else if 0x92 ≤ i ∧ i ≤ 0x95 then
    match c.recs with
    | r :: _ => recWord r (i - 0x92)
    | [] => 0
  else if i = 0x96 then mkWord [(16, 8, c.lcode.toNat), (0, 16, c.lost)]
  else 0

/-! ### Registers of I57 (R257, 00 R9, R10) -/

/-- `CP_VARIANT`. -/
def cpVariant (s : State) : Word :=
  mkWord [(15, 1, b2n (tileFail s)), (12, 3, nTe s), (11, 1, b2n s.fuses.hgrade), (10, 1, b2n s.fuses.iot), (8, 2, s.fuses.clay), (0, 8, 0xB0)]

/-- A read of index 0x00 to 0x06, 0x20 to 0x23, 0xF0, 0xF1. -/
def cpReg (s : State) (i : Nat) : Word :=
  let c := s.cp
  if i = 0 then 0x4F580B04
  else if i = 1 then cpVariant s
  else if i = 2 then cpStatus s
  else if i = 3 then
    mkWord [(3, 1, b2n s.boot.testEn), (2, 1, b2n s.boot.strapHpdef), (1, 1, b2n s.boot.strapAddr), (0, 1, b2n s.boot.strapCp)]
  else if i = 4 then mkWord [(8, 8, c.wIdx.toNat), (4, 3, c.wRes.toNat), (0, 4, c.wSeq.toNat)]
  else if i = 5 then mkWord [(24, 8, c.errCmd), (16, 8, c.errTrunc), (0, 16, c.errCrc)]
  else if i = 6 then c.scratch
  else if i = 0x20 then c.intStatus.setWidth 32
  else if i = 0x21 then c.intEn.setWidth 32
  else if i = 0x23 then (intPend s).setWidth 32
  else if i = 0xF0 then c.loop
  else if i = 0xF1 then 0xA5C35A3C
  else 0

/-- A write of those registers. -/
def cpRegAct (i : Nat) (v : Word) : RegAct := okAct (fun s =>
  let b := BitVec.ofNat 13 (bits v 12 0)
  if i = 6 then updCp s (fun c => { c with scratch := v })
  else if i = 0x20 then setInt s (s.cp.intStatus &&& ~~~b) s.cp.intEn
  else if i = 0x21 then setInt s s.cp.intStatus b
  else if i = 0x22 then setInt s (s.cp.intStatus ||| b) s.cp.intEn
  else if i = 0xF0 then updCp s (fun c => { c with loop := ~~~v })
  else s)

/-- INT_SET. -/
def execIntSet (f : Fr) (v : Word) (s : State) : Host.Outcome State Fault Refusal := .next (wframe f 0x22 v (cpRegAct 0x22 v) s)

/-! ### The register map (R256) -/

/-- What a write frame does at an index that holds a register. A retrain request written through REGISTER_WRITE has no recent
retrain before it (DESIGN CHOICE, log 42). -/
def regAct (seq : BitVec 4) (i : Nat) (v : Word) : RegAct :=
  if 0x10 ≤ i ∧ i ≤ 0x18 then pwrAct i v
  else if 0x30 ≤ i ∧ i ≤ 0x35 then winAct i seq v
  else if i = 0x40 then doorbellAct v
  else if 0x50 ≤ i ∧ i ≤ 0x57 then hpAct i v
  else if i = 0x61 then snsChgAct v
  else if i = 0x63 then siltEvtAct v
  else if i = 0x64 then sedQaddrAct v
  else if 0x70 ≤ i ∧ i ≤ 0x7B then timAct i v
  else if i = 0x81 then lcCmdAct v
  else if 0x82 ≤ i ∧ i ≤ 0x86 then capAct i v
  else if i = 0x87 then dbgCtrlAct v
  else if i = 0x91 then popAct v
  else if 0xA0 ≤ i ∧ i ≤ 0xA3 then slpWrite .slp0 (i - 0xA0) v
  else if 0xA8 ≤ i ∧ i ≤ 0xAB then slpWrite .slp1 (i - 0xA8) v
  else if i = 0xB1 then retrainAct .t0 false v
  else if i = 0xB2 then retrainAct .t1 false v
  else cpRegAct i v

/-- REGISTER_WRITE (R231, R237). -/
def execRegisterWrite (f : Fr) (idx : Byte) (v : Word) (s : State) : Host.Outcome State Fault Refusal :=
  .next (wframe f idx v (regAct f.seq idx.toNat v) s)

/-- The word that a read of an index returns, but for the two indices with a prefetch (DESIGN CHOICE, log 81). -/
def regRead (s : State) (i : Nat) : Word :=
  if 0x10 ≤ i ∧ i ≤ 0x18 then pwrRead s i
  else if 0x30 ≤ i ∧ i ≤ 0x35 then winReg s i
  else if i = 0x41 then dbStat s
  else if 0x50 ≤ i ∧ i ≤ 0x57 then hpRead s i
  else if i = 0x60 then snsVerdict s
  else if i = 0x61 then s.sns.chg
  else if i = 0x62 then siltCtx s
  else if i = 0x63 then siltEvt s
  else if i = 0x64 then s.sed.qaddr
  else if 0x70 ≤ i ∧ i ≤ 0x7B then timRead s i
  else if i = 0x80 then lcState s
  else if 0x82 ≤ i ∧ i ≤ 0x86 then capRead s i
  else if i = 0x87 then dbgCtrl s
  else if 0x90 ≤ i ∧ i ≤ 0x96 then fltRead s i
  else if 0xA0 ≤ i ∧ i ≤ 0xA3 then slpRead s .slp0 (i - 0xA0)
  else if 0xA8 ≤ i ∧ i ≤ 0xAB then slpRead s .slp1 (i - 0xA8)
  else if i = 0xB0 then tileStatus s
  else if i = 0xB1 then tileRetrain s .t0
  else if i = 0xB2 then tileRetrain s .t1
  else if i = 0xB3 then iotStatus s
  else cpReg s i

/-- Status and data of a read (R216, R237, R238, 16 R648). -/
def readView (s : State) (i : Nat) : Nat × Word :=
  if !idxMapped i || idxAbsent s i then (stAddr, 0)
  else if life s == .retired && idxOther i then (stDenied, 0)
  else if i = 0x31 then iaDataView s
  else if i = 0x65 then sedQdataView s
  else (stOk, regRead s i)

/-- The side effects of a read (R232; for `HP_RULE_DATA` 09 R380). -/
def readStep (s : State) (i : Nat) : State :=
  if (readView s i).1 = stAddr ∧ i ≠ 0x31 then s
  else if (readView s i).1 = stDenied ∧ i ≠ 0x31 then s
  else if i = 0x31 then iaDataStep s
  else if i = 0x65 then sedQdataStep s
  else if i = 0x54 then (if pdPowered s 1 then hpAdvance s else s)
  else s

/-! ### Read frames (R215 to R222) -/

/-- The response of a read: status byte, data, CRC over the command and index as received and what is sent (R230). -/
def respond (s : State) (seq : BitVec 4) (i : Byte) (st : Nat) (d : Word) : State :=
  let status := BitVec.ofNat 8 (st * 32 + s.cp.wRes.toNat * 4 + b2n (irqLow s) * 2 + b2n s.cp.disc)
  let crc := crc8 ([cpCmdByte false seq, i, status] ++ beBytes d)
  updCp s (fun c => { c with disc := false, resp := some ⟨status, d, crc⟩ })

/-- One read frame: not served; BUSY when it comes too early after FIO was asked for, in SPI mode (R222, R227); else its value, its
side effects, its response. In manufacturing test mode only `CP_ID` answers (02 R82). -/
def readFrame (seq : BitVec 4) (early : Bool) (addr : BitVec 7) (i : Byte) (s : State) : State :=
  if !addressed s addr then s
  else if s.boot.mfg && i == 0 && !s.boot.por then respond (askFio s) seq i stOk 0x4F580B04
  else if !cpServes s then s
  else if early && !s.boot.strapCp then respond (askFio s) seq i stBusy 0
  else
    let s := askFio s
    let s := if i = 0x70 then latchNow s else s
    let x := readView s i.toNat
    respond (readStep s i.toNat) seq i x.1 x.2

/-- Read frames: those that came before, then the one of the command. -/
def rframe (r : Rd) (i : Byte) (s : State) : State :=
  readFrame r.seq r.early r.addr i (r.pre.foldl (fun t x => readFrame x.1 false r.addr x.2 t) s)

/-- CP_IA_DATA_READ (R245). -/
def execCpIaDataRead (r : Rd) (s : State) : Host.Outcome State Fault Refusal := .next (rframe r 0x31 s)

/-- TIM_NOW_LO_READ (05 R209). -/
def execTimNowLoRead (r : Rd) (s : State) : Host.Outcome State Fault Refusal := .next (rframe r 0x70 s)

/-- HP_RULE_READ (09 R380). -/
def execHpRuleRead (r : Rd) (s : State) : Host.Outcome State Fault Refusal := .next (rframe r 0x54 s)

/-- SED_QDATA_READ (10 R410). -/
def execSedQdataRead (r : Rd) (s : State) : Host.Outcome State Fault Refusal := .next (rframe r 0x65 s)

/-! ### Discarded frames (R233 to R235) -/

/-- CP_INVALID_COMMAND: a command byte that is neither a read nor a write. -/
def execCpInvalidCommand (cmd : Byte) (s : State) : Host.Outcome State Fault Refusal :=
  if !Instr.wf (.cpInvalidCommand cmd) then .fault .illFormed
  else if cpServes s then .next (discarded (updCp (askFio s) (fun c => { c with errCmd := satInc 0xFF c.errCmd })))
  else .next s

/-- CP_TRUNCATED_FRAME. -/
def execCpTruncatedFrame (s : State) : Host.Outcome State Fault Refusal :=
  if cpServes s then .next (discarded (updCp (askFio s) (fun c => { c with errTrunc := satInc 0xFF c.errTrunc }))) else .next s

/-- CP_FRAME_TIMEOUT. -/
def execCpFrameTimeout (s : State) : Host.Outcome State Fault Refusal :=
  if cpServes s then .next (discarded (updCp (askFio s) (fun c => { c with errTrunc := satInc 0xFF c.errTrunc }))) else .next s

end Sys2Proof.Machine
end

