-- ==== Sys2Proof/Machine/Dispatch.lean ====
section
/-! DEFINITION. The dispatch: one arm per command, each a direct call of that command's meaning. -/

namespace Sys2Proof.Machine

open Sys2Proof

/-- The effect of a command on everything but the queue of waiting commands. -/
def exec (i : Instr) (s : State) : Host.Outcome State Fault Refusal :=
  match i with
  | .powerOnReset c pr => Sys2Proof.Machine.execPowerOnReset c pr s
  | .resetNLow w pr => Sys2Proof.Machine.execResetNLow w pr s
  | .brownOut pr => Sys2Proof.Machine.execBrownOut pr s
  | .porRelease lv => Sys2Proof.Machine.execPorRelease lv s
  | .strapPullDisable => Sys2Proof.Machine.execStrapPullDisable s
  | .inputPresent ix lost => Sys2Proof.Machine.execInputPresent ix s lost
  | .inputFail ix => Sys2Proof.Machine.execInputFail ix s
  | .inputQualified ix r => Sys2Proof.Machine.execInputQualified ix s r
  | .handoverWindowClose => Sys2Proof.Machine.execHandoverWindowClose s
  | .pmuHoAck n => Sys2Proof.Machine.execPmuHoAck n s
  | .pwrCmdRun f qw sedret => Sys2Proof.Machine.execPwrCmdRun f qw sedret s
  | .pwrCmdIdle f qw sedret => Sys2Proof.Machine.execPwrCmdIdle f qw sedret s
  | .pwrCmdWatch f qw sedret => Sys2Proof.Machine.execPwrCmdWatch f qw sedret s
  | .pwrCmdHibernate f qw sedret => Sys2Proof.Machine.execPwrCmdHibernate f qw sedret s
  | .pwrCmdOff f qw sedret => Sys2Proof.Machine.execPwrCmdOff f qw sedret s
  | .abortPoint rx => Sys2Proof.Machine.execAbortPoint s rx
  | .quiesceTimeout rx => Sys2Proof.Machine.execQuiesceTimeout s rx
  | .reversalDone => Sys2Proof.Machine.execReversalDone s
  | .checkpoint x => Sys2Proof.Machine.execCheckpoint x s
  | .pwrGoodRise => Sys2Proof.Machine.execPwrGoodRise s
  | .pwrGoodTimeout => Sys2Proof.Machine.execPwrGoodTimeout s
  | .pwrGoodDrop => Sys2Proof.Machine.execPwrGoodDrop s
  | .pmicScriptEntryDone ack => Sys2Proof.Machine.execPmicScriptEntryDone ack s
  | .pwrOpTarget f op => Sys2Proof.Machine.execPwrOpTarget f op s
  | .pllRelockDone => Sys2Proof.Machine.execPllRelockDone s
  | .padRelease f mask => Sys2Proof.Machine.execPadRelease f mask s
  | .xt32Fail freq periods => Sys2Proof.Machine.execXt32Fail freq periods s
  | .xt32Return => Sys2Proof.Machine.execXt32Return s
  | .lrcMeasureWindow count => Sys2Proof.Machine.execLrcMeasureWindow count s
  | .xt24Fail freq => Sys2Proof.Machine.execXt24Fail freq s
  | .pllLockLoss pll1 within1ms => Sys2Proof.Machine.execPllLockLoss pll1 within1ms s
  | .hrcFail freq => Sys2Proof.Machine.execHrcFail freq s
  | .fioFail pr => Sys2Proof.Machine.execFioFail pr s
  | .lrcFail pr => Sys2Proof.Machine.execLrcFail pr s
  | .rstCtrlWarm v => Sys2Proof.Machine.execRstCtrlWarm v s
  | .warmResetDone => Sys2Proof.Machine.execWarmResetDone s
  | .islRst v => Sys2Proof.Machine.execIslRst v s
  | .islandResetRelease => Sys2Proof.Machine.execIslandResetRelease s
  | .supervisorWatchdog => Sys2Proof.Machine.execSupervisorWatchdog s
  | .crossing tag reply entry => Sys2Proof.Machine.execCrossing tag reply entry s
  | .wipeDone m eccError => Sys2Proof.Machine.execWipeDone m eccError s
  | .timSetGo f key => Sys2Proof.Machine.execTimSetGo f key s
  | .slewEnd => Sys2Proof.Machine.execSlewEnd s
  | .alarmFire => Sys2Proof.Machine.execAlarmFire s
  | .timAlarmHiWrite f v => Sys2Proof.Machine.execTimAlarmHiWrite f v s
  | .timNowLoRead r => Sys2Proof.Machine.execTimNowLoRead r s
  | .registerWrite f idx v => Sys2Proof.Machine.execRegisterWrite f idx v s
  | .cpInvalidCommand cmd => Sys2Proof.Machine.execCpInvalidCommand cmd s
  | .cpTruncatedFrame => Sys2Proof.Machine.execCpTruncatedFrame s
  | .cpFrameTimeout => Sys2Proof.Machine.execCpFrameTimeout s
  | .intSet f v => Sys2Proof.Machine.execIntSet f v s
  | .cpIaAddrWrite f v => Sys2Proof.Machine.execCpIaAddrWrite f v s
  | .cpIaDataRead r => Sys2Proof.Machine.execCpIaDataRead r s
  | .cpIaDataWrite f v => Sys2Proof.Machine.execCpIaDataWrite f v s
  | .windowPrefetchDone => Sys2Proof.Machine.execWindowPrefetchDone s
  | .windowWriteDone => Sys2Proof.Machine.execWindowWriteDone s
  | .doorbell f v => Sys2Proof.Machine.execDoorbell f v s
  | .doorbellRelease => Sys2Proof.Machine.execDoorbellRelease s
  | .slpEnable f p v => Sys2Proof.Machine.execSlpEnable f p v s
  | .slpDisable f p v => Sys2Proof.Machine.execSlpDisable f p v s
  | .slpRetrain f p v => Sys2Proof.Machine.execSlpRetrain f p v s
  | .trainClockOk p => Sys2Proof.Machine.execTrainClockOk p s
  | .trainAligned p => Sys2Proof.Machine.execTrainAligned p s
  | .tsSetReceive p ts => Sys2Proof.Machine.execTsSetReceive p ts s
  | .trainStateTimeout p => Sys2Proof.Machine.execTrainStateTimeout p s
  | .slipTrainingDetect p => Sys2Proof.Machine.execSlipTrainingDetect p s
  | .creditReceive p vc cum => Sys2Proof.Machine.execCreditReceive p vc cum s
  | .creditRefresh p => Sys2Proof.Machine.execCreditRefresh p s
  | .ackReceive p n => Sys2Proof.Machine.execAckReceive p n s
  | .nakReceive p n => Sys2Proof.Machine.execNakReceive p n s
  | .badControlColumn p c => Sys2Proof.Machine.execBadControlColumn p s c
  | .itemFrameReceive p fr => Sys2Proof.Machine.execItemFrameReceive p fr s
  | .pingReceive p fr => Sys2Proof.Machine.execPingReceive p fr s
  | .pongReceive p fr => Sys2Proof.Machine.execPongReceive p fr s
  | .badFrame p k => Sys2Proof.Machine.execBadFrame p k s
  | .nakHoldoffExpiry p => Sys2Proof.Machine.execNakHoldoffExpiry p s
  | .ingressFrameWrite p => Sys2Proof.Machine.execIngressFrameWrite p s
  | .egressFrameSend p => Sys2Proof.Machine.execEgressFrameSend p s
  | .replayTimeout p => Sys2Proof.Machine.execReplayTimeout p s
  | .rxSilenceTimeout p => Sys2Proof.Machine.execRxSilenceTimeout p s
  | .channelEnable n v => Sys2Proof.Machine.execChannelEnable n v s
  | .channelDisable n v => Sys2Proof.Machine.execChannelDisable n v s
  | .spCfgWrite k v => Sys2Proof.Machine.execSpCfgWrite k v s
  | .channelSlot n u => Sys2Proof.Machine.execChannelSlot n u s
  | .sampleDone n r => Sys2Proof.Machine.execSampleDone n r s
  | .slotMiss n => Sys2Proof.Machine.execSlotMiss n s
  | .transferAbandon n low => Sys2Proof.Machine.execTransferAbandon n s low
  | .counterEdge c a b => Sys2Proof.Machine.execCounterEdge c a b s
  | .pcmSample p v changed => Sys2Proof.Machine.execPcmSample p v changed s
  | .sb1ClassChange uv => Sys2Proof.Machine.execSb1ClassChange uv s
  | .manualTransfer iot v => Sys2Proof.Machine.execManualTransfer iot v s
  | .manualTransferDone iot e low => Sys2Proof.Machine.execManualTransferDone iot e s low
  | .manualTransferTimeout iot low => Sys2Proof.Machine.execManualTransferTimeout iot s low
  | .hpInputVerdict n => Sys2Proof.Machine.execHpInputVerdict n s
  | .hpInputSce => Sys2Proof.Machine.execHpInputSce s
  | .sceSilenceTimeout => Sys2Proof.Machine.execSceSilenceTimeout s
  | .armFirstKey f => Sys2Proof.Machine.execArmFirstKey f s
  | .armSecondKey f => Sys2Proof.Machine.execArmSecondKey f s
  | .armSequenceTimeout => Sys2Proof.Machine.execArmSequenceTimeout s
  | .releaseKey f => Sys2Proof.Machine.execReleaseKey f s
  | .disarmKey f => Sys2Proof.Machine.execDisarmKey f s
  | .invalidKey f key => Sys2Proof.Machine.execInvalidKey f key s
  | .hpHold f v => Sys2Proof.Machine.execHpHold f v s
  | .hpRunst f v => Sys2Proof.Machine.execHpRunst f v s
  | .hpCtrlConfig f v => Sys2Proof.Machine.execHpCtrlConfig f v s
  | .hpTripack f v => Sys2Proof.Machine.execHpTripack f v s
  | .hpRuleWrite f v => Sys2Proof.Machine.execHpRuleWrite f v s
  | .hpRuleRead r => Sys2Proof.Machine.execHpRuleRead r s
  | .selftestPeriod => Sys2Proof.Machine.execSelftestPeriod s
  | .selftestDone o => Sys2Proof.Machine.execSelftestDone o s
  | .feedbackMismatch ball => Sys2Proof.Machine.execFeedbackMismatch ball s
  | .sceRun v => Sys2Proof.Machine.execSceRun v s
  | .inferenceStart u => Sys2Proof.Machine.execInferenceStart u s
  | .inferenceDone => Sys2Proof.Machine.execInferenceDone s
  | .sceFault => Sys2Proof.Machine.execSceFault s
  | .sceMark => Sys2Proof.Machine.execSceMark s
  | .sedimentClose => Sys2Proof.Machine.execSedimentClose s
  | .sedQaddrWrite f v => Sys2Proof.Machine.execSedQaddrWrite f v s
  | .sedQdataRead r => Sys2Proof.Machine.execSedQdataRead r s
  | .sedPrefetchDone => Sys2Proof.Machine.execSedPrefetchDone s
  | .qmStreamOpen q => Sys2Proof.Machine.execQmStreamOpen q s
  | .qmStreamClose q => Sys2Proof.Machine.execQmStreamClose q s
  | .reservationGrant e => Sys2Proof.Machine.execReservationGrant e s
  | .queueStallEnd e => Sys2Proof.Machine.execQueueStallEnd e s
  | .sinkStallTimeout q => Sys2Proof.Machine.execSinkStallTimeout q s
  | .eventQueueWrite => Sys2Proof.Machine.execEventQueueWrite s
  | .nop e => Sys2Proof.Machine.execNop e s
  | .mark e => Sys2Proof.Machine.execMark e s
  | .fence e => Sys2Proof.Machine.execFence e s
  | .commit e => Sys2Proof.Machine.execCommit e s
  | .swait e => Sys2Proof.Machine.execSwait e s
  | .swaitComplete e => Sys2Proof.Machine.execSwaitComplete e s
  | .scTimeout e => Sys2Proof.Machine.execScTimeout e s
  | .ssig e => Sys2Proof.Machine.execSsig e s
  | .twait e => Sys2Proof.Machine.execTwait e s
  | .twaitComplete e => Sys2Proof.Machine.execTwaitComplete e s
  | .twaitTimeout e => Sys2Proof.Machine.execTwaitTimeout e s
  | .enq e => Sys2Proof.Machine.execEnq e s
  | .deq e => Sys2Proof.Machine.execDeq e s
  | .mov e => Sys2Proof.Machine.execMov e s
  | .gath e => Sys2Proof.Machine.execGath e s
  | .scat e => Sys2Proof.Machine.execScat e s
  | .mma e => Sys2Proof.Machine.execMma e s
  | .conv e => Sys2Proof.Machine.execConv e s
  | .dwcv e => Sys2Proof.Machine.execDwcv e s
  | .pool e => Sys2Proof.Machine.execPool e s
  | .red e => Sys2Proof.Machine.execRed e s
  | .vop e => Sys2Proof.Machine.execVop e s
  | .act e => Sys2Proof.Machine.execAct e s
  | .qscan e => Sys2Proof.Machine.execQscan e s
  | .qpack e => Sys2Proof.Machine.execQpack e s
  | .qunpk e => Sys2Proof.Machine.execQunpk e s
  | .rscl e => Sys2Proof.Machine.execRscl e s
  | .commandComplete e => Sys2Proof.Machine.execCommandComplete e s
  | .watchdog e => Sys2Proof.Machine.execWatchdog e s
  | .satCntWrite n v => Sys2Proof.Machine.execSatCntWrite n v s
  | .jobAdmit => Sys2Proof.Machine.execJobAdmit s
  | .jobStart ix => Sys2Proof.Machine.execJobStart ix s
  | .jobRestart ix => Sys2Proof.Machine.execJobRestart ix s
  | .ledgerCommit => Sys2Proof.Machine.execLedgerCommit s
  | .fltPop f v => Sys2Proof.Machine.execFltPop f v s
  | .capInstall f v => Sys2Proof.Machine.execCapInstall f v s
  | .installComplete => Sys2Proof.Machine.execInstallComplete s
  | .capSwap f v => Sys2Proof.Machine.execCapSwap f v s
  | .swapEffect bad => Sys2Proof.Machine.execSwapEffect bad s
  | .capUnload f v => Sys2Proof.Machine.execCapUnload f v s
  | .capAbort f v => Sys2Proof.Machine.execCapAbort f v s
  | .lcFirstKey f v => Sys2Proof.Machine.execLcFirstKey f v s
  | .lcKeyTimeout => Sys2Proof.Machine.execLcKeyTimeout s
  | .transition f v => Sys2Proof.Machine.execTransition f v s
  | .lcFusesBlown bad => Sys2Proof.Machine.execLcFusesBlown bad s
  | .keyprog f v => Sys2Proof.Machine.execKeyprog f v s
  | .keyprogDone e => Sys2Proof.Machine.execKeyprogDone e s
  | .keyrevoke f v => Sys2Proof.Machine.execKeyrevoke f v s
  | .dbgEnable f v => Sys2Proof.Machine.execDbgEnable f v s
  | .dbgDisable f v => Sys2Proof.Machine.execDbgDisable f v s
  | .idcode => Sys2Proof.Machine.execIdcode s
  | .bypass code => Sys2Proof.Machine.execBypass code s
  | .extest cells => Sys2Proof.Machine.execExtest cells s
  | .samplePreload cells => Sys2Proof.Machine.execSamplePreload cells s
  | .dbgacc dr => Sys2Proof.Machine.execDbgacc dr s
  | .patchprog dr => Sys2Proof.Machine.execPatchprog dr s
  | .patchprogDone e => Sys2Proof.Machine.execPatchprogDone e s
  | .linkTrained t => Sys2Proof.Machine.execLinkTrained t s
  | .beatCrcError t => Sys2Proof.Machine.execBeatCrcError t s
  | .tileRetrainReq f t1 v recent => Sys2Proof.Machine.execTileRetrainReq f t1 v recent s
  | .retrainDeferExpiry t => Sys2Proof.Machine.execRetrainDeferExpiry t s
  | .linkRecovery t k recent => Sys2Proof.Machine.execLinkRecovery t k recent s
  | .retrainDone t => Sys2Proof.Machine.execRetrainDone t s
  | .retrainTimeout t => Sys2Proof.Machine.execRetrainTimeout t s
  | .csiEnable r v => Sys2Proof.Machine.execCsiEnable r v s
  | .csiFilterWrite r fl v => Sys2Proof.Machine.execCsiFilterWrite r fl v s
  | .csiFrameStart r vc fnum => Sys2Proof.Machine.execCsiFrameStart r vc fnum s
  | .csiLine r pk => Sys2Proof.Machine.execCsiLine r pk s
  | .csiFrameEnd r vc => Sys2Proof.Machine.execCsiFrameEnd r vc s
  | .slowTick => Sys2Proof.Machine.execSlowTick s
  | .feedbackMismatchEnd ball => Sys2Proof.Machine.execFeedbackMismatchEnd ball s
  | .dbgaccDone => Sys2Proof.Machine.execDbgaccDone s
  | .testAccessPortReset low => Sys2Proof.Machine.execTestAccessPortReset s low
  | .ulpsEntry r => Sys2Proof.Machine.execUlpsEntry r s
  | .ulpsExit r => Sys2Proof.Machine.execUlpsExit r s
  | .fioStop => Sys2Proof.Machine.execFioStop s
  | .reservedTypeFrameReceive p fr => Sys2Proof.Machine.execReservedTypeFrameReceive p fr s

end Sys2Proof.Machine
end

