-- ==== Sys2Proof/Machine/Pads.lean ====
section
/-! DEFINITION. The state of each signal's pad (02 R76, R77, R715, 04 R156): what the block drives, releases, terminates or ignores. The
protocols that run on a pad while a frame or a transfer lasts are `active`: frames and transfers are single commands here (log 105). -/

namespace Sys2Proof.Machine

open Sys2Proof

/-- What a pad does. A pull is weak: `some true` up, `some false` down. -/
inductive PadState where
  /-- Driven to a level. -/
  | drives (level : Bool)
  /-- Driven, or driven and received, as its controller has it at each moment of a transfer. -/
  | active
  /-- Not driven: high impedance, or an open-drain pad that is released. -/
  | released
  | input (pull : Option Bool)
  /-- The level at the ball has no effect. -/
  | ignored (pull : Option Bool)
  | bufferOff (pull : Option Bool)
  /-- A differential receiver with its termination on or off. -/
  | terminated (on : Bool)
  | oscillator (on : Bool)
  /-- The pad holds its level, output enable and pull, and its input is ignored (04 R156). -/
  | latched
  deriving DecidableEq, Repr

/-- The pull that `SP_CFG.PULL` gives pin k (08 R353). -/
def spPull (s : State) (k : Nat) : Option Bool :=
  let p := bits (nth s.sns.spcfg k 0) 5 4
  if p = 0 then some false else if p = 2 then some true else none

/-- The device drives the signal of a sensor pin, or shares a bus on it; the others it only receives (08 R325). -/
def Sig.driven : Sig → Bool
  | .scl _ => true
  | .sda _ => true
  | .sck _ => true
  | .mosi _ => true
  | .cs _ _ => true
  | .pdmClk => true
  | .miso _ => false
  | .cntA _ => false
  | .cntB _ => false
  | .pdmD _ => false

/-- The pad of sensor pin k (R76, 08 R325, R329). -/
def spPad (s : State) (k : Nat) : PadState :=
  if padLatched s k then .latched
  else if !pinLive s k || !pdPowered s 2 then .bufferOff (spPull s k)
  else match pinSig k (pinMux s k) with
    | some g => if g.driven then .active else .input (spPull s k)
    | none => if pinMux s k = 1 then .input (spPull s k) else .bufferOff (spPull s k)

/-- A strap, or TEST_EN: sampled during power-on reset, its input and pull off from 1 ms after the release on. -/
def strapPad (s : State) : PadState := if s.boot.por || s.boot.strapPulls then .input (some false) else .bufferOff none

/-- A pair of a Slip port: nothing is driven and nothing terminated until the link is enabled. -/
def slpPad (s : State) (p : Port) (tx : Bool) : PadState :=
  let on := portRuns s p && (slipSt s p).en
  if portPads s p then .latched else if tx then (if on then .active else .released) else .terminated on

/-- I3C3 and I3C4: released but while a transfer runs on the controller. -/
def i3cPad (s : State) (k : Nat) : PadState :=
  if s.pwr.pads.getLsbD 6 then .latched
  else if bit s.iotXfer.ctrl 31 && bits s.iotXfer.ctrl 27 24 + 3 == k then .active else .released

/-- A pad of the debug port: PD23 off or latched, or power-on reset, and the ball is ignored (16 R650). -/
def dbgPad (s : State) (st : PadState) (pull : Option Bool) : PadState :=
  if s.boot.por then .ignored pull
  else if s.pwr.pads.getLsbD 7 then .latched
  else if pdPowered s 23 then st else .ignored pull

/-- The state of a signal's pad (R76). -/
def padState (s : State) : Signal → PadState
  | .haltAN => .drives (haltA s)
  | .haltB => .drives (haltB s)
  | .hpFbA => .input none
  | .hpFbB => .input none
  | .cpSck => if s.boot.por then .ignored none else .input none
  | .cpSdi => if s.boot.por then .ignored none else .input none
  | .cpCsN => if s.boot.por || s.boot.strapCp then .ignored (some true) else .input (some true)
  | .cpSdo => .released
  | .cpIrqN => if irqLow s then .drives false else .released
  | .pmicScl => if s.pwr.script.isSome then .active else .released
  | .pmicSda => if s.pwr.script.isSome then .active else .released
  | .pwrReq => .drives s.pwr.pwrReq
  | .pwrGood => .input (some false)
  | .strapCp => strapPad s
  | .strapAddr => strapPad s
  | .strapHpdef => strapPad s
  | .testEn => strapPad s
  | .resetN => .input (some true)
  | .xt32 _ => .oscillator true
  | .xt24 _ => .oscillator s.clk.xt24Run
  | .dbgTck => dbgPad s (.input (some true)) (some true)
  | .dbgTms => dbgPad s (.input (some true)) (some true)
  | .dbgTdi => dbgPad s (.input (some true)) (some true)
  | .dbgTrstN => dbgPad s (.input (some false)) (some false)
  | .dbgTdo => if s.pwr.pads.getLsbD 7 then .latched else .released
  | .sp k => if s.boot.por then .bufferOff (some false) else spPad s k
  | .ain _ => if s.pwr.pads.getLsbD 2 then .latched else .released
  | .slp p tx _ _ => slpPad s p tx
  | .csi r _ _ => if s.pwr.pads.getLsbD 5 then .latched else .terminated (bit (csiSt s r).ctrl 0 && linkLive s .io)
  | .i3c k _ => i3cPad s k

/-- What EXTEST drives stands before what the block itself does at that ball (16 R650). -/
def ballDriven (s : State) (n : Nat) : Option PadState :=
  match s.jtag.driven.find? (fun c => c.1 == n) with
  | some c => some (.drives c.2)
  | none => (ballSignal n).map (padState s)

end Sys2Proof.Machine
end

