-- ==== Sys2Proof/Safety.lean ====
section
/-! DEFINITION. What a safe step is, and the canonical form of the memories, in the terms the claims use. -/

namespace Sys2Proof.Machine

open Sys2Proof

/-- The outcome is a next state. -/
def Completes (o : Host.Outcome State Fault Refusal) : Prop := ∃ t, o = .next t

/-- The block's memories are in canonical form: addresses strictly rising, no listed byte equal to what an unlisted one
reads as, and clay memory lists only addresses of the clay windows. -/
abbrev State.memOk (s : State) : Prop :=
  Memory.wf s.mem = true ∧ Memory.wf s.scc = true ∧ Memory.wfClay (clayZeroed s) s.clay = true ∧
    s.clay.all (fun c => isClay c.1) = true

/-- Lists that stand for a fixed number of like things have that number of elements. -/
abbrev State.wf (s : State) : Prop :=
  s.isl.length = 64 ∧ s.pwr.pd.length = 24 ∧ s.pwr.scripts.length = 64 ∧ s.sel.log.length = 8 ∧ s.sns.chans.length = 16 ∧
    s.sns.cnts.length = 4 ∧ s.sns.spcfg.length = 24 ∧ s.hp.rules.length = 64 ∧ s.hp.shadow.length = 64 ∧ s.hp.c.length = 32 ∧
    s.hp.standing.length = 32 ∧ s.hp.grp.length = 32 ∧ s.engs.length = 8 ∧ s.sats.length = 64 ∧ s.ldg.entries.length = 256 ∧
    s.cap.slots.length = 64 ∧ s.cap.active.length = 32 ∧ s.tiles.length = 3 ∧ s.csis.length = 2 ∧ s.slip0.bind.length = 128 ∧
    s.slip1.bind.length = 128 ∧ s.sed.opens.length = 3 ∧ s.sed.written.length = 3 ∧ s.sed.lastStart.length = 3

/-- A write frame with data `v` reaches the register at index `i`: the port serves and is the one addressed, the CRC matches, and
nothing turns the write away (06 R223, R231, R237, R238, 16 R648). -/
abbrev Reaches (f : Fr) (i : Byte) (v : Word) (s : State) : Prop :=
  cpServes s = true ∧ addressed s f.addr = true ∧ frGood f i v = true ∧ writeBar s i.toNat = none

/-- A window write reaches the word at address `a`: the port serves, nothing makes the access wait, and its status is OK (06 R248,
01 R710, 05 R713, 16 R648). -/
abbrev WinReaches (a : Nat) (s : State) : Prop :=
  cpServes s = true ∧ winWaits s a true (lateNow s a) = false ∧ winStatus s a true (lateNow s a) = stOk

/-- The result of a write frame with index `i`, status `st` and tag `seq` stands in `CP_LINK` (06 R257). -/
def linkedTo (c : Cp) (i : Byte) (st : BitVec 3) (seq : BitVec 4) : Cp := { c with wIdx := i, wRes := st, wSeq := seq }

end Sys2Proof.Machine
end

