-- ==== Sys2Proof/Certificates/Slice0/Obligations.lean ====
section
/-! DEFINITION. The statements for the provers. Rule numbers are those of spec/. A next state is written out where that is short;
else a statement says what the next state `t` holds, and its frame `t = { s with u := t.u, ... }` lists every unit of the state
that may have changed. -/

open Sys2Proof Sys2Proof.Machine

/-- No word gains an error mark, and only words of the QDT, written with new descriptors, may lose one (05 R711, R189). -/
abbrev QdtMarks (s t : State) : Prop := (∀ a ∈ t.ecc, a ∈ s.ecc) ∧ ∀ a ∈ s.ecc, a < 0x30000000 → a ∈ t.ecc

/-! ### The whole block -/

/-- The step takes the command at the front of the queue and runs it with the queue's rest; on an empty queue the block idles
(the idling is the model's choice, log 20). -/
def Obligations.StepRunsTheFrontCommand : Prop :=
  (∀ (c : Instr) (rest : List Instr) (s : State), step { s with pending := c :: rest } = exec c { s with pending := rest }) ∧
    ∀ s : State, s.pending = [] → step s = .next s

/-- Every command that can arrive has an effect: the only stop is that of a term that `Instr.wf` refuses. -/
def Obligations.WellFormedCommandsComplete : Prop :=
  ∀ (c : Instr) (s : State), (Instr.wf c = true → ∃ t, exec c s = .next t) ∧ (Instr.wf c = false → exec c s = .fault .illFormed)

/-- No command touches the queue of waiting commands. -/
def Obligations.CommandsLeaveTheQueue : Prop := ∀ (c : Instr) (s t : State), exec c s = .next t → t.pending = s.pending

/-- Every step keeps on-die memory, clay memory and the scale cache in canonical form. -/
def Obligations.StepKeepsMemoriesCanonical : Prop := ∀ s t : State, s.memOk → step s = .next t → t.memOk

/-- Every step keeps the number of elements of the lists that stand for a fixed number of like things. -/
def Obligations.StepKeepsTheSizes : Prop := ∀ s t : State, s.wf → step s = .next t → t.wf

/-- `RELEASED` never stands without `ARMED`: no step leaves Hardpan released and not armed (09 R364, R369). -/
def Obligations.ReleasedStaysArmed : Prop :=
  ∀ s t : State, (s.hp.released = true → s.hp.armed = true) → step s = .next t → t.hp.released = true → t.hp.armed = true

/-- After reset the memories are in canonical form, the lists have their sizes and Hardpan is not released. -/
def Obligations.ResetMeetsTheInvariants : Prop := State.reset.memOk ∧ State.reset.wf ∧ State.reset.hp.released = false

/-- No step restores an intact life-cycle fuse, the key kill or an anti-rollback bit, or changes what the part is. -/
def Obligations.FusesOnlyBlow : Prop :=
  ∀ s t : State, step s = .next t →
    t.fuses.lcf &&& s.fuses.lcf = s.fuses.lcf ∧ (s.fuses.keykill = true → t.fuses.keykill = true) ∧
      t.fuses.rollback &&& s.fuses.rollback = s.fuses.rollback ∧ t.fuses.clay = s.fuses.clay ∧ t.fuses.iot = s.fuses.iot ∧
      t.fuses.hgrade = s.fuses.hgrade

/-- A power-on reset sets DT to 0, `TIM_ERRBOUND` to 0xFFFF_FFFF and the quality to UNCERTAIN (05 R203), whatever the state before. -/
def Obligations.PowerOnResetSetsTime : Prop :=
  ∀ (c : PorCause) (pr : Probe) (s : State),
    ∃ t, exec (.powerOnReset c pr) s = .next t ∧ t.tim.dt = 0 ∧ regRead t 0x73 = 0xFFFFFFFF ∧ qualNow t = 0b11

/-- What a power-on reset of cause `c` leaves: reset asserted, the cause recorded, the probes' findings, every epoch 0x0, nothing
stored in any memory, no fault record, no job, no model, every other register as `State.reset` has it; the fuses keep all that was
blown, the comparators of the selector what they see, the queue its commands. The halt outputs are driven to the halt level and
PWR_REQ low (02 R76, R77). -/
abbrev AfterPowerOn (c : PorCause) (pr : Probe) (s t : State) : Prop :=
  t.boot.por = true ∧ t.boot.cause = PorCause.code c ∧ t.boot.probe = pr ∧ t.boot.lcNow = t.fuses.lcf ∧
    (∀ i < 64, (islSt t i).epoch = 0 ∧ (islSt t i).held = false) ∧ t.mem = [] ∧ t.clay = [] ∧ t.scc = [] ∧
    t.sel.aPres = s.sel.aPres ∧ t.sel.bPres = s.sel.bPres ∧ t.sel.sel = (!s.sel.aPres && s.sel.bPres) ∧ t.pending = s.pending ∧
    padState t .haltAN = .drives false ∧ padState t .haltB = .drives true ∧ padState t .pwrReq = .drives false ∧
    t = { State.reset with fuses := t.fuses, boot := t.boot, sel := t.sel, clk := t.clk, tim := t.tim, qm := t.qm, jtag := t.jtag,
                           clayK := t.clayK, freeK := t.freeK, pwr := t.pwr, lc := t.lc, win := t.win, pending := t.pending }

/-- Every cause of power-on reset, the RESET_N pulse and the failures of FIO and the LRC lead there (05 R171, R176, 03 R110, 02 R80).
Release of power-on reset latches the straps, TEST_EN only in BLANK, and begins the power-up exit from HIBERNATE with PWR_REQ
high (02 R80 to R87, 04 R717); the pulls can then be disabled (02 R76). In manufacturing test mode PD23 is on at once where PWR_GOOD is
high already (16 R633). -/
def Obligations.PowerOnResetClearsAndLatches : Prop :=
  (∀ c pr s, ∃ t, exec (.powerOnReset c pr) s = .next t ∧ AfterPowerOn c pr s t) ∧
    (∀ pr s, ∃ t, exec (.resetNLow .atLeast10us pr) s = .next t ∧ AfterPowerOn .pin pr s t) ∧
    (∀ pr s, exec (.resetNLow .upTo1us pr) s = .next s) ∧
    (∀ pr s, ∃ t, exec (.brownOut pr) s = .next t ∧
      AfterPowerOn .bor pr { s with sel := { s.sel with aPres := false, bPres := false } } t) ∧
    (∀ pr s, s.clk.fioRun = true → s.boot.por = false →
      (∃ t, exec (.fioFail pr) s = .next t ∧ AfterPowerOn .clk pr s t) ∧
        ∃ t, exec (.lrcFail pr) s = .next t ∧ AfterPowerOn .clk pr s t) ∧
    (∀ lv s, s.boot.por = true → s.sel.chosen = true → (lv.testEn && life s == .blank && s.pwr.pwrGood) = false →
    ∃ t, exec (.porRelease lv) s = .next t ∧
    t.boot = { s.boot with por := false, mfg := lv.testEn && life s == .blank, strapCp := lv.cp, strapAddr := lv.addr,
                           strapHpdef := lv.hpdef, testEn := lv.testEn && life s == .blank, strapPulls := true } ∧
    t.pwr.seq = .exit 0 none 1 ∧ t.pwr.st = .hibernate ∧ t.pwr.tgt = .run ∧ t.pwr.pwrReq = true ∧ t.pwr.opCur = 0 ∧
    t.clk = { s.clk with slowLrc := !s.boot.probe.xt32, xt32Absent := !s.boot.probe.xt32 } ∧ t.win = Win.reset ∧
    t = { s with boot := t.boot, pwr := t.pwr, win := t.win, clk := t.clk, flt := t.flt, tim := t.tim, cp := t.cp,
                 slip0 := t.slip0, slip1 := t.slip1 }) ∧
    (∀ lv s, s.boot.por = true → s.sel.chosen = true → (lv.testEn && life s == .blank && s.pwr.pwrGood) = true →
    ∃ t, exec (.porRelease lv) s = .next t ∧ t.boot.por = false ∧ t.boot.mfg = true ∧ pdOn t 23 = true ∧ t.sel = s.sel ∧
      t.fuses = s.fuses ∧ t.hp = s.hp) ∧
    (∀ s, s.boot.por = false → exec .strapPullDisable s = .next { s with boot := { s.boot with strapPulls := false } })

/-! ### Supply selector (chapter 03) -/

/-- When the selected input fails and the other is present, the other is selected: `TOTAL` counts it, a window opens, the log's
entry at `HEAD` holds the failover, and the hand-over interrupt source fires (03 R102, R106, R119, R120, 06 R242).
An input that appears: the first one is chosen, VAON_A before VAON_B (03 R101); the departed one that returns in an open window
is counted in the window's entry, up to 255 (03 R107); with none left, the selected one ends the ride-through, which is logged
with the stamp of its start (03 R117). Where the input that returned first is lost before its switch closes, the switch is abandoned
with no FAIL entry (03 R121).
A qualified VAON_A takes over from VAON_B (03 R103), which ends an open window; with VAON_B failing at the same moment the one switch is
logged as FAIL_B_TO_A, and with VAON_A failing before its switch closes nothing is switched or logged (03 R121). A window also closes
by time (03 R106); `ACK` of 1 to 8 lowers `COUNT` (03 R115), any other value leaves it. -/
def Obligations.TheSelectorHandsOver : Prop :=
  (∀ s : State, s.sel.chosen = true → inOff s = false → s.sel.aPres = true → s.sel.bPres = true →
    ∃ t, exec (.inputFail (if s.sel.sel then .b else .a)) s = .next t ∧ t.sel.sel = !s.sel.sel ∧
      t.sel.aPres = s.sel.sel ∧ t.sel.bPres = !s.sel.sel ∧ t.sel.aQual = (s.sel.aQual && s.sel.sel) ∧
      t.sel.bQual = (s.sel.bQual && !s.sel.sel) ∧ t.sel.total = satInc 0xFFFF s.sel.total ∧ t.sel.win = some s.sel.head ∧
      t.sel.log = upd (closeWin s.sel).log s.sel.head (fun _ =>
        ⟨now (instant s), 0, true, if s.sel.sel then hoFailBA else hoFailAB, s.sel.sel, !s.sel.sel, !s.sel.sel⟩) ∧
      t.sel.head = (s.sel.head + 1) % 8 ∧ t.sel.count = Nat.min 8 (s.sel.count + 1) ∧
      t.sel.lost = (s.sel.lost || s.sel.count == 8) ∧ t.sel.gap = none ∧
      t.cp = { s.cp with intStatus := s.cp.intStatus ||| 0b10 } ∧
      t = { s with sel := t.sel, tim := t.tim, cp := t.cp, slip0 := t.slip0, slip1 := t.slip1 }) ∧
    (∀ s, s.sel.chosen = false → s.sel.aPres = false → s.sel.bPres = false →
    ∀ i lost, ∃ t, exec (.inputPresent i lost) s = .next t ∧ t.sel.chosen = true ∧ t.sel.sel = (i == .b) ∧ t.sel.aPres = (i != .b) ∧
      t.sel.bPres = (i != .a) ∧ t.sel.count = 1 ∧ t.sel.head = 1 ∧ t = { s with sel := t.sel }) ∧
    (∀ s k lost, s.sel.chosen = true → s.sel.aPres = s.sel.sel.not → s.sel.bPres = s.sel.sel → s.sel.win = some k →
      s.sel.gap = none →
      ∃ t, exec (.inputPresent (if s.sel.sel then .a else .b) lost) s = .next t ∧
        t.sel = { s.sel with aPres := true, bPres := true, aQual := s.sel.aQual && !s.sel.sel, bQual := s.sel.bQual && s.sel.sel,
                             log := upd s.sel.log k (fun e => { e with bounce := satInc 255 e.bounce }) } ∧
        t = { s with sel := t.sel, tim := t.tim }) ∧
    (∀ s g, s.sel.chosen = true → inOff s = false → s.sel.aPres = false → s.sel.bPres = false → s.sel.win = none →
      s.sel.gap = some g →
      ∃ t, exec (.inputPresent (if s.sel.sel then .a else .b) true) s = .next t ∧ t.sel.sel = s.sel.sel ∧ t.sel.aPres = false ∧
        t.sel.bPres = false ∧ t.sel.total = s.sel.total ∧ t.sel.gap.isSome = true ∧ t.sel.head = (s.sel.head + 1) % 8 ∧
        t.sel.log = upd s.sel.log s.sel.head (fun _ => ⟨g, 0, false, hoRide, s.sel.sel, !s.sel.sel, s.sel.sel⟩) ∧
        t = { s with sel := t.sel, tim := t.tim, cp := t.cp, slip0 := t.slip0, slip1 := t.slip1 }) ∧
    (∀ s g lost, s.sel.chosen = true → inOff s = false → s.sel.aPres = false → s.sel.bPres = false → s.sel.win = none →
      s.sel.gap = some g →
      ∃ t, exec (.inputPresent (if s.sel.sel then .b else .a) lost) s = .next t ∧ t.sel.gap = none ∧ t.sel.sel = s.sel.sel ∧
        t.sel.log = upd s.sel.log s.sel.head (fun _ => ⟨g, 0, false, hoRide, !s.sel.sel, s.sel.sel, s.sel.sel⟩) ∧
        t.sel.head = (s.sel.head + 1) % 8 ∧ t.cp = { s.cp with intStatus := s.cp.intStatus ||| 0b10 } ∧
        t = { s with sel := t.sel, tim := t.tim, cp := t.cp, slip0 := t.slip0, slip1 := t.slip1 }) ∧
    (∀ s, s.sel.chosen = true → inOff s = false → s.sel.sel = true → s.sel.aPres = true → s.sel.aQual = false →
    ∃ t, exec (.inputQualified .a .alone) s = .next t ∧ t.sel.sel = false ∧ t.sel.aQual = true ∧ t.sel.bQual = s.sel.bQual ∧
      t.sel.win = none ∧ t.sel.total = satInc 0xFFFF s.sel.total ∧
      t.sel.log = upd (closeWin s.sel).log s.sel.head (fun _ => ⟨now (instant s), 0, false, hoReturn, true, s.sel.bPres, false⟩) ∧
      t.cp = { s.cp with intStatus := s.cp.intStatus ||| 0b10 } ∧
      t = { s with sel := t.sel, tim := t.tim, cp := t.cp, slip0 := t.slip0, slip1 := t.slip1 }) ∧
    (∀ s, s.sel.chosen = true → inOff s = false → s.sel.sel = true → s.sel.aPres = true → s.sel.aQual = false →
    (∃ t, exec (.inputQualified .a .bFails) s = .next t ∧ t.sel.sel = false ∧ t.sel.aQual = true ∧ t.sel.bPres = false ∧
      t.sel.win = some s.sel.head ∧ t.sel.total = satInc 0xFFFF s.sel.total ∧
      t.sel.log = upd (closeWin s.sel).log s.sel.head (fun _ => ⟨now (instant s), 0, true, hoFailBA, true, false, false⟩) ∧
      t.cp = { s.cp with intStatus := s.cp.intStatus ||| 0b10 } ∧
      t = { s with sel := t.sel, tim := t.tim, cp := t.cp, slip0 := t.slip0, slip1 := t.slip1 }) ∧
    ∃ t, exec (.inputQualified .a .aFails) s = .next t ∧ t.sel = { s.sel with aPres := false } ∧ t = { s with sel := t.sel, tim := t.tim }) ∧
    (∀ s k, s.sel.win = some k → exec .handoverWindowClose s = .next { s with
      sel := { s.sel with win := none, winOff := false, log := upd s.sel.log k (fun e => { e with opn := false }) } }) ∧
    (∀ (n : BitVec 4) s, WinReaches 0x40010104 s → exec (.pmuHoAck n) s = .next { s with
      sel := { s.sel with count := if 1 ≤ n.toNat ∧ n.toNat ≤ 8 then s.sel.count - n.toNat else s.sel.count } })

/-! ### Power sequencer (chapter 04) -/

/-- The `PWR_CMD` row that asks for a state. -/
def pwrRow : PState → Fr → BitVec 4 → Bool → Instr
  | .run => .pwrCmdRun
  | .idle => .pwrCmdIdle
  | .watch => .pwrCmdWatch
  | .hibernate => .pwrCmdHibernate
  | .off => .pwrCmdOff

/-- A command for a lower state accepted in a stable state begins step E1; with a wake event pending the entry is cut at AP1 (04 R127
to R129, R136). `SEDRET` counts for HIBERNATE (04 R165).
A command that a block refuses, or one not accepted in the present state, begins nothing: the refusal is counted and recorded
with its code, `RESULT` is REFUSED (04 R127, R129, R149).
RUN commanded in a stable state below RUN wakes the block: the HOST bit is set and the exit begins at X1, with PWR_REQ from
HIBERNATE (04 R127, R134, R140, R141). -/
def Obligations.PowerCommandsBeginTransitions : Prop :=
  (∀ (tgt : PState) (f : Fr) (qw : BitVec 4) (sed : Bool) (s : State), Reaches f 0x10 (pwrCmdWord tgt qw sed) s → s.pwr.seq = .stable → tgt ≠ .run →
    acceptable s.pwr.st tgt = true → s.pwr.pmicFault = false → s.pwr.opStage = .none → staticRefuser s tgt = none →
    ∃ t, exec (pwrRow tgt f qw sed) s = .next t ∧
      t.pwr = { s.pwr with tgt := tgt, seq := .entry 1 qw (if wakePending s then .wake else .none) none, e4Stopped := false,
                           scriptRan := false, woken := false,
                           sedret := if tgt = .hibernate then sed else s.pwr.sedret } ∧
      t.cp = linkedTo s.cp 0x10 0 f.seq ∧ t = { s with pwr := t.pwr, cp := t.cp, clk := t.clk, tim := t.tim }) ∧
    (∀ (tgt : PState) (f : Fr) (qw : BitVec 4) (sed : Bool) (s : State) (code : Byte), Reaches f 0x10 (pwrCmdWord tgt qw sed) s → s.pwr.seq = .stable →
    s.pwr.pmicFault = false → s.pwr.opStage = .none → tgt ≠ .run →
    (if acceptable s.pwr.st tgt then staticRefuser s tgt = some code else code = 0x01) →
    ∃ t, exec (pwrRow tgt f qw sed) s = .next t ∧
      t.pwr = { s.pwr with refuseCnt := satInc 0xFFFF s.pwr.refuseCnt, refCode := code, refReq := PState.code tgt, refOp := false,
                           result := 2 } ∧
      t.cp = linkedTo { s.cp with intStatus := s.cp.intStatus ||| 1 } 0x10 0 f.seq ∧
      t = { s with pwr := t.pwr, cp := t.cp, clk := t.clk, tim := t.tim, slip0 := t.slip0, slip1 := t.slip1 }) ∧
    (∀ (f : Fr) (qw : BitVec 4) (sed : Bool) (s : State), Reaches f 0x10 (pwrCmdWord .run qw sed) s → s.pwr.seq = .stable → inTransition s = false →
    s.pwr.pmicFault = false → (s.pwr.st = .idle ∨ s.pwr.st = .watch ∨ s.pwr.st = .hibernate) →
    ∃ t, exec (.pwrCmdRun f qw sed) s = .next t ∧ t.pwr.seq = .exit 0 none 1 ∧ t.pwr.tgt = .run ∧ t.pwr.st = s.pwr.st ∧
      t.pwr.wakeSrc = s.pwr.wakeSrc ||| 1 ∧ (s.pwr.st = .hibernate → t.pwr.pwrReq = true) ∧
      t.cp = linkedTo { s.cp with intStatus := s.cp.intStatus ||| 1 } 0x10 0 f.seq ∧
      t = { s with pwr := t.pwr, cp := t.cp, clk := t.clk, tim := t.tim, slip0 := t.slip0, slip1 := t.slip1 })

/-- The abort points of an entry that nothing cuts (04 R128): AP1 closes admission, AP2 stands for a queue checkpoint, AP3 of an entry
to WATCH or deeper for the domains put in retention, AP4 of such an entry for XT24 stopped, AP5 for the down script; each leads to the
next step. After E6 the target is reached.
An entry whose blocks do not become ready in time is turned back at AP1, with the code of the lowest block; with `QWAIT` = 0 at once
(04 R130, R133, R149, R165). A wake event has an entry abandoned at the end of its step, and counted (04 R137, R149).
The end of a reversal: the block stands in the state it started from, with result ABORTED after a wake event and REFUSED after a
refusal; a wake event then starts the exit from a state below RUN; the reversal of a resumed entry leads back into its exit
(04 R135, R137, R145 to R147, R149). -/
def Obligations.EntriesStepAndReverse : Prop :=
  (∀ rx s (qw : BitVec 4) r, s.pwr.seq = .entry 1 qw .none r → s.pwr.script = none → (qw ≠ 0 ∨ notReady s s.pwr.tgt rx = none) →
    exec (.abortPoint rx) s = .next { s with pwr := { s.pwr with admission := false, seq := .entry 2 qw .none r } }) ∧
    (∀ rx s (qw : BitVec 4) r, s.pwr.seq = .entry 2 qw .none r → notReady (evConsume s) s.pwr.tgt rx = none → windowQuiet s = true →
      ∃ t, exec (.abortPoint rx) s = .next t ∧ t.pwr = { s.pwr with seq := .entry 3 qw .none r } ∧ t.qm.checkpoint = true ∧
        QdtMarks s t ∧ t = { s with pwr := t.pwr, qm := t.qm, ecc := t.ecc }) ∧
    (∀ rx s (qw : BitVec 4) r, s.pwr.seq = .entry 3 qw .none r → s.pwr.script = none → PState.deep s.pwr.tgt = true →
      ∃ t, exec (.abortPoint rx) s = .next t ∧ t.pwr = { s.pwr with seq := .entry 4 qw .none r, supSaved := true, pd := t.pwr.pd } ∧
        (∀ n < 24, pdLevel t n = if (n = 6 ∨ n = 8 ∨ n = 17) ∧ pdOn s n = true then .ret else pdLevel s n) ∧ t = { s with pwr := t.pwr }) ∧
    (∀ rx s (qw : BitVec 4) r, s.pwr.seq = .entry 4 qw .none r → s.pwr.script = none → PState.deep s.pwr.tgt = true →
      ∃ t, exec (.abortPoint rx) s = .next t ∧ t.pwr.seq = .entry 5 qw .none r ∧ t.pwr.pgIgnored = true ∧ t.clk.xt24Run = false ∧
        t.clk.meas = none ∧
        t = { s with pwr := t.pwr, clk := t.clk, tim := t.tim, cp := t.cp, slip0 := t.slip0, slip1 := t.slip1 }) ∧
    (∀ rx s (qw : BitVec 4) r, s.pwr.seq = .entry 5 qw .none r → s.pwr.script = none →
      exec (.abortPoint rx) s = .next { s with pwr := { s.pwr with seq := .entry 6 qw .none r } }) ∧
    (∀ rx s (qw : BitVec 4) r, s.pwr.seq = .entry 6 qw .none r → s.pwr.script = none → s.pwr.woken = false → s.pwr.deferred = none →
      s.pwr.opTgt = s.pwr.opCur → s.outstanding = [] → s.engs.all (fun g => g.cur.isNone) = true →
      ∃ t, exec (.abortPoint rx) s = .next t ∧ t.pwr.seq = .stable ∧ t.pwr.st = s.pwr.tgt ∧ t.pwr.result = 1 ∧ t.boot = s.boot ∧
        t.sel = s.sel) ∧
    (∀ rx s step (qw : BitVec 4) r, s.pwr.seq = .entry step qw .wake r → step = 1 ∨ step = 3 → s.pwr.script = none →
      ∃ t, exec (.abortPoint rx) s = .next t ∧ t.pwr.seq = .reverse step (firstStep r) .wake r ∧
        t.pwr.abortCnt = satInc 0xFFFF s.pwr.abortCnt ∧ t.pwr.st = s.pwr.st ∧ t = { s with pwr := t.pwr }) ∧
    (∀ rx s (qw : BitVec 4) cut r code, s.pwr.seq = .entry 2 qw cut r → notReady (evConsume s) s.pwr.tgt rx = some code →
    ∃ t, exec (.quiesceTimeout rx) s = .next t ∧
      t.pwr = { s.pwr with refuseCnt := satInc 0xFFFF s.pwr.refuseCnt, refCode := code, refReq := PState.code s.pwr.tgt,
                           refOp := false, seq := .reverse 1 (firstStep r) (.refuse code) r, script := none, woken := false } ∧
      QdtMarks s t ∧ t = { s with pwr := t.pwr, qm := t.qm, ecc := t.ecc }) ∧
    (∀ rx s r code, s.pwr.seq = .entry 1 0 .none r → s.pwr.script = none → notReady s s.pwr.tgt rx = some code →
      exec (.abortPoint rx) s = .next { s with pwr := { s.pwr with
        admission := false, refuseCnt := satInc 0xFFFF s.pwr.refuseCnt, refCode := code, refReq := PState.code s.pwr.tgt,
        refOp := false, seq := .reverse 1 (firstStep r) (.refuse code) r, woken := false } }) ∧
    (∀ s ap first cut, s.pwr.seq = .reverse ap first cut none → s.pwr.script = none → s.pwr.awaitPg = false →
    (s.pwr.st = .run ∨ cut ≠ .wake ∧ s.pwr.woken = false) → s.pwr.deferred = none → s.pwr.opTgt = s.pwr.opCur →
    ∃ t, exec .reversalDone s = .next t ∧ t.pwr.seq = .stable ∧ t.pwr.st = s.pwr.st ∧ t.pwr.result = (if cut = .wake then 3 else 2) ∧
      t.boot = s.boot ∧ t.sel = s.sel) ∧
    (∀ s ap first, s.pwr.seq = .reverse ap first .wake none → s.pwr.script = none → s.pwr.awaitPg = false → s.pwr.st ≠ .run →
      ∃ t, exec .reversalDone s = .next t ∧ t.pwr.seq = .exit 0 none 1 ∧ t.pwr.tgt = .run ∧ t.pwr.st = s.pwr.st ∧
        t.pwr.result = 3 ∧ t.boot = s.boot ∧ t.sel = s.sel) ∧
    (∀ s ap first cut c, s.pwr.seq = .reverse ap first cut (some c) → s.pwr.script = none → s.pwr.awaitPg = false →
      ∃ t, exec .reversalDone s = .next t ∧ t.pwr.seq = .exit c none (if cut = .wake then 3 else 2) ∧ t.pwr.tgt = .run ∧
        t.pwr.st = s.pwr.st ∧ t.boot = s.boot ∧ t.sel = s.sel)

/-- The checkpoints of an exit (04 R141, R144). From HIBERNATE and WATCH: C1 waits for WATCH_UP and PWR_GOOD, and every domain that was
off is on; at C2 of an exit from HIBERNATE device time is bridged (05 R198); C3 follows X3 with XT24 running, at OP0; C4 waits for every
wipe (05 R189), then retention ends, and an error found in it is a warm reset (05 R176); at C5 admission opens, and the exit ends in RUN
with its result, that of the power-up with DONE (04 R717). From IDLE: C3, then C5. After a reset of I21 the step X2 is made again once
I21 runs (04 R166). -/
def Obligations.ExitStepsToRun : Prop :=
  (∀ x s res, s.boot.mfg = false → s.pwr.seq = .exit 0 none res → (s.pwr.st = .hibernate ∨ s.pwr.st = .watch) → s.pwr.script = none →
    s.pwr.awaitPg = false →
    ∃ t, exec (.checkpoint x) s = .next t ∧ t.pwr.seq = .exit 1 none res ∧ t.pwr.st = s.pwr.st ∧ t.clk.fioRun = true ∧
      (∀ n < 24, s.pwr.pd.length = 24 → pdAbsent s n = false → pdLevel s n = .off → pdOn t n = true) ∧ t.fuses = s.fuses ∧
      t.boot = s.boot ∧ t.sel = s.sel) ∧
    (∀ x s res, s.boot.mfg = false → s.pwr.seq = .exit 0 none res → (s.pwr.st = .hibernate ∨ s.pwr.st = .watch) →
      (s.pwr.script ≠ none ∨ s.pwr.awaitPg = true) → exec (.checkpoint x) s = .next s) ∧
    (∀ x s res, s.boot.mfg = false → s.pwr.seq = .exit 1 none res → s.pwr.st = .hibernate →
      exec (.checkpoint x) s = .next { s with
        pwr := { s.pwr with seq := .exit 2 none res, repeatX2 := false },
        tim := { s.tim with err := errAdd s.tim.err s.tim.errHib, errHib := 0, bridged := true } }) ∧
    (∀ x s res, s.boot.mfg = false → s.pwr.seq = .exit 1 none res → s.pwr.st = .watch →
      ∃ t, exec (.checkpoint x) s = .next t ∧ t.pwr.seq = .exit 2 none res ∧ t.pwr.st = .watch ∧ t.fuses = s.fuses ∧ t.boot = s.boot ∧
        t.sel = s.sel) ∧
    (∀ x s res, s.boot.mfg = false → s.pwr.seq = .exit 2 none res → (s.pwr.st = .hibernate ∨ s.pwr.st = .watch) →
      s.pwr.repeatX2 = false → s.clk.xt24Run = true → s.wiping.contains .sce = false → s.wiping.contains .sed = false →
      s.wiping.contains .hpRules = false →
      exec (.checkpoint x) s = .next { s with
        pwr := { s.pwr with seq := .exit 3 none res, e4Stopped := false, opCur := 0 } }) ∧
    (∀ x s res, s.boot.mfg = false → s.pwr.seq = .exit 3 none res → (s.pwr.st = .hibernate ∨ s.pwr.st = .watch) →
      s.pwr.repeatX2 = false → s.wiping ≠ [] → exec (.checkpoint x) s = .next s) ∧
    (∀ x s res, s.boot.mfg = false → s.pwr.seq = .exit 3 none res → (s.pwr.st = .hibernate ∨ s.pwr.st = .watch) →
      s.pwr.repeatX2 = false → s.wiping = [] → retErr s 6 = false → retErr s 8 = false →
      ∃ t, exec (.checkpoint x) s = .next t ∧
        t.pwr = { s.pwr with seq := .exit 4 none res, supSaved := false, pd := t.pwr.pd } ∧
        (∀ n < 24, pdLevel t n = if (n = 6 ∨ n = 8 ∨ n = 17) ∧ pdLevel s n = .ret then .on else pdLevel s n) ∧
        t = { s with pwr := t.pwr, qm := { s.qm with checkpoint := false } }) ∧
    (∀ x s res, s.boot.mfg = false → s.boot.por = false → s.pwr.seq = .exit 3 none res → (s.pwr.st = .hibernate ∨ s.pwr.st = .watch) →
      s.pwr.repeatX2 = false → s.wiping = [] → (retErr s 6 = true ∨ retErr s 8 = true) →
      ∃ t, exec (.checkpoint x) s = .next t ∧ t.pwr.seq = .warm 0 ∧ t.pwr.st = s.pwr.st ∧ t.boot.cause = 0x13 ∧
        t.boot.warmCnt = satInc 0xFF s.boot.warmCnt ∧ t.sel = s.sel) ∧
    (∀ x s res, s.boot.mfg = false → s.pwr.seq = .exit 4 none res → s.pwr.st ≠ .idle → s.pwr.repeatX2 = false →
      s.pwr.deferred = none → s.pwr.opTgt = s.pwr.opCur →
      ∃ t, exec (.checkpoint x) s = .next t ∧ t.pwr.seq = .stable ∧ t.pwr.st = .run ∧ t.pwr.tgt = .run ∧
        t.pwr.result = (if s.pwr.porUp then 1 else res) ∧ t.pwr.admission = true ∧ t.pwr.supRdy = true ∧ QdtMarks s t ∧
        t = { s with pwr := t.pwr, cp := t.cp, qm := t.qm, ecc := t.ecc, slip0 := t.slip0, slip1 := t.slip1 }) ∧
    (∀ x s res, s.boot.mfg = false → s.pwr.seq = .exit 0 none res → s.pwr.st = .idle → s.clk.xt24Run = true →
      s.wiping.contains .sce = false → s.wiping.contains .sed = false → s.wiping.contains .hpRules = false →
      ∃ t, exec (.checkpoint x) s = .next t ∧ t.pwr.seq = .exit 3 none res ∧ t.pwr.st = .idle ∧
        (∀ n < 24, s.pwr.pd.length = 24 → pdAbsent s n = false → pdLevel s n = .gated → pdOn t n = true) ∧ t.fuses = s.fuses ∧
        t.boot = s.boot ∧ t.sel = s.sel) ∧
    (∀ x s res, s.boot.mfg = false → s.pwr.seq = .exit 3 none res → s.pwr.st = .idle → s.pwr.repeatX2 = false →
      s.pwr.deferred = none → s.pwr.opTgt = s.pwr.opCur →
      ∃ t, exec (.checkpoint x) s = .next t ∧ t.pwr.seq = .stable ∧ t.pwr.st = .run ∧ t.pwr.admission = true ∧
        t.pwr.result = (if s.pwr.porUp then 1 else res)) ∧
    (∀ x s cp res, s.boot.mfg = false → s.pwr.seq = .exit cp none res → 2 ≤ cp → s.pwr.repeatX2 = true →
      exec (.checkpoint x) s = .next (if (islSt s 21).held then s else { s with pwr := { s.pwr with repeatX2 := false } }))

/-- PWR_GOOD: its rise ends a wait; a wait that lasts too long, or a drop while the block relies on it, is a PMIC fault with case 0 or
2, which resets the block with cause PMIC_FAIL (04 R161 to R163, 05 R176). In the power-up after power-on reset a wait that lasts too long
leaves the block in HIBERNATE with `PMIC_FAULT` set (04 R164).
A script writes one entry after the other; a NACKed entry is tried once more, and a second NACK fails the script, which turns an entry
back at AP5 (04 R162, R166); the entry after the last ends it. -/
def Obligations.PowerGoodAndScriptsAreWatched : Prop :=
  (∀ s, s.boot.mfg = false → s.pwr.awaitPg = true → s.pwr.opCur = 0 →
    exec .pwrGoodRise s = .next { s with pwr := { s.pwr with pwrGood := true, awaitPg := false } }) ∧
    (∀ s, s.boot.por = false → s.pwr.awaitPg = true → s.pwr.porUp = false → inOff s = false → s.flt.recs.length < 32 →
      ∃ t, exec .pwrGoodTimeout s = .next t ∧ t.pwr.pmicFault = true ∧ t.pwr.seq = .warm 0 ∧ t.pwr.warmPmic = true ∧
        t.boot = { s.boot with cause := 0x11, warmCnt := satInc 0xFF s.boot.warmCnt } ∧
        t.flt.recs = s.flt.recs ++ [plainRec (instant s) 0x27 0 1 15] ∧ t.sel = s.sel) ∧
    (∀ s, s.boot.por = false → s.pwr.awaitPg = true → s.pwr.porUp = true → s.outstanding = [] →
      s.engs.all (fun g => g.cur.isNone) = true →
      ∃ t, exec .pwrGoodTimeout s = .next t ∧ t.pwr.pmicFault = true ∧ t.pwr.seq = .stable ∧ t.pwr.st = .hibernate ∧
        t.pwr.pwrReq = false ∧ t.pwr.result = 4 ∧ t.boot = s.boot ∧ t.sel = s.sel) ∧
    (∀ s, reliesPg s = true → s.pwr.porUp = false → inOff s = false → s.flt.recs.length < 32 →
      ∃ t, exec .pwrGoodDrop s = .next t ∧ t.pwr.pwrGood = false ∧ t.pwr.pmicFault = true ∧ t.pwr.seq = .warm 0 ∧
        t.boot = { s.boot with cause := 0x11, warmCnt := satInc 0xFF s.boot.warmCnt } ∧
        t.flt.recs = s.flt.recs ++ [plainRec (instant s) 0x27 2 1 15] ∧ t.sel = s.sel) ∧
    (∀ s sc, s.pwr.script = some sc → sc.idx + 1 ≠ 8 → bits (scriptWord s sc.slot (sc.idx + 1)) 31 25 ≠ 0 →
    exec (.pmicScriptEntryDone true) s = .next { s with pwr := { s.pwr with script := some ⟨sc.slot, sc.idx + 1, false⟩ } }) ∧
    (∀ s sc (qw : BitVec 4) r, s.pwr.script = some sc → sc.retried = true → (sc.slot = 0 ∨ sc.slot = 6) →
      s.pwr.seq = .entry 5 qw .none r →
      ∃ t, exec (.pmicScriptEntryDone false) s = .next t ∧ t.pwr.seq = .reverse 5 (firstStep r) (.refuse 0x09) r ∧
        t.pwr.refCode = 0x09 ∧ t.pwr.refuseCnt = satInc 0xFFFF s.pwr.refuseCnt ∧ t.pwr.st = s.pwr.st ∧ t = { s with pwr := t.pwr }) ∧
    (∀ s sc, s.pwr.script = some sc → sc.slot = 0 ∨ sc.slot = 6 → (sc.idx + 1 = 8 ∨ bits (scriptWord s sc.slot (sc.idx + 1)) 31 25 = 0) →
      exec (.pmicScriptEntryDone true) s = .next { s with pwr := { s.pwr with script := none } }) ∧
    (∀ s sc, s.pwr.script = some sc → sc.retried = false →
      exec (.pmicScriptEntryDone false) s = .next { s with pwr := { s.pwr with script := some { sc with retried := true } } })

/-- A change of operating point (04 R150 to R154): upward its script runs first, downward PLL0 relocks first; the relock ends an upward
change. A change to OP3 on H grade, or to a point without a script, is refused (04 R151, 00 R4); which code stands when both hold is the
model's choice (log 87), and so is that `RESULT` is left alone while a transition is under way (log 51).
`PAD_RELEASE` frees the named pad groups whose domain is on, and only those (04 R157, R158). -/
def Obligations.OperatingPointsAndPadsChange : Prop :=
  (∀ f (op : BitVec 2) s, Reaches f 0x12 (op.setWidth 32) s → (s.fuses.hgrade && op == 3) = false → scriptEmpty s (2 + op.toNat) = false →
    chargesFit s op.toNat = true → s.pwr.seq = .stable → PState.deep s.pwr.st = false → s.pwr.opStage = .none →
    op.toNat ≠ s.pwr.opCur →
    ∃ t, exec (.pwrOpTarget f op) s = .next t ∧
      t.pwr = { s.pwr with
        opTgt := op.toNat, opGoal := op.toNat, opStage := if s.pwr.opCur < op.toNat then .script else .relock,
        script := if s.pwr.opCur < op.toNat then some ⟨2 + op.toNat, 0, false⟩ else s.pwr.script } ∧
      t.clk = { s.clk with fioRun := true, relock0 := s.clk.relock0 || decide (op.toNat < s.pwr.opCur) } ∧
      t.cp = linkedTo s.cp 0x12 0 f.seq ∧ t = { s with pwr := t.pwr, clk := t.clk, tim := t.tim, cp := t.cp }) ∧
    (∀ f (op : BitVec 2) s, Reaches f 0x12 (op.setWidth 32) s → s.pwr.seq ≠ .stable →
      ((s.fuses.hgrade && op == 3) = true ∨ scriptEmpty s (2 + op.toNat) = true) →
      ∃ t, exec (.pwrOpTarget f op) s = .next t ∧
        t.pwr = { s.pwr with refuseCnt := satInc 0xFFFF s.pwr.refuseCnt, refReq := op.toNat, refOp := true,
                             refCode := if s.fuses.hgrade && op == 3 then 0x01 else 0x09 } ∧
        t.cp = linkedTo s.cp 0x12 0 f.seq ∧ t = { s with pwr := t.pwr, clk := t.clk, tim := t.tim, cp := t.cp }) ∧
    (∀ f (op : BitVec 2) s, Reaches f 0x12 (op.setWidth 32) s → s.pwr.seq = .stable →
      ((s.fuses.hgrade && op == 3) = true ∨ scriptEmpty s (2 + op.toNat) = true) →
      ∃ t, exec (.pwrOpTarget f op) s = .next t ∧
        t.pwr = { s.pwr with result := 2, refuseCnt := satInc 0xFFFF s.pwr.refuseCnt, refReq := op.toNat, refOp := true,
                             refCode := if s.fuses.hgrade && op == 3 then 0x01 else 0x09 } ∧
        t.cp = linkedTo { s.cp with intStatus := s.cp.intStatus ||| 1 } 0x12 0 f.seq ∧
        t = { s with pwr := t.pwr, clk := t.clk, tim := t.tim, cp := t.cp, slip0 := t.slip0, slip1 := t.slip1 }) ∧
    (∀ s, (s.clk.relock0 = true ∨ s.clk.relock1 = true) → s.pwr.opStage = .relock → s.pwr.opCur ≤ s.pwr.opGoal →
      s.pwr.seq = .stable → s.pwr.deferred = none → s.pwr.opTgt = s.pwr.opGoal →
      ∃ t, exec .pllRelockDone s = .next t ∧ t.pwr = { s.pwr with opCur := s.pwr.opGoal, opStage := .none, result := 1 } ∧
        t.clk = { s.clk with relock0 := false, relock1 := false } ∧
        t.cp = { s.cp with intStatus := s.cp.intStatus ||| 1 } ∧
        t = { s with pwr := t.pwr, clk := t.clk, cp := t.cp, slip0 := t.slip0, slip1 := t.slip1 }) ∧
    (∀ f (mask : BitVec 8) s, Reaches f 0x18 (mask.setWidth 32) s →
    ∃ t, exec (.padRelease f mask) s = .next t ∧
      (∀ g < 8, t.pwr.pads.getLsbD g = (s.pwr.pads.getLsbD g && !(mask.getLsbD g && pdOn s (padPd g)))) ∧
      t.pwr = { s.pwr with pads := t.pwr.pads } ∧ t.cp = linkedTo s.cp 0x18 0 f.seq ∧
      t = { s with pwr := t.pwr, cp := t.cp, clk := t.clk, tim := t.tim })

/-! ### Clocks, resets and time (chapter 05) -/

/-- A slow tick adds the tick's length to DT, carries the fraction, counts, and lets the error bound grow (05 R193, R198, R201); the
fast cycles are counted anew. While a slew has not caught up, DT gains half the tick's length and the true time all of it (05 R204). -/
def Obligations.SlowTickAdvancesTime : Prop :=
  (∀ s, aonRuns s = true → s.tim.slew = none → s.clk.slowLrc = false → i59On s = true →
    exec .slowTick s = .next { s with tim := { s.tim with
      dt := s.tim.dt + 32, err := errAdd s.tim.err (32 * 131072000 * bits s.tim.cfg 11 0),
      ticks := (s.tim.ticks + 1) % 2 ^ 40, fastN := 0, fastRan := fastRuns s } }) ∧
    (∀ s k, aonRuns s = true → s.tim.slew = none → s.clk.slowLrc = true → s.clk.meas = some k → s.clk.xt24Run = true →
      i59On s = false →
      exec .slowTick s = .next { s with tim := { s.tim with
        dt := s.tim.dt + (s.tim.frac.m + 2 * k) / 2 ^ 17, frac := { s.tim.frac with m := (s.tim.frac.m + 2 * k) % 2 ^ 17 },
        errHib := s.tim.errHib + k * 2000 * bits s.tim.cfg 27 16, ticks := (s.tim.ticks + 1) % 2 ^ 40, fastN := 0,
        fastRan := fastRuns s } }) ∧
    (∀ s, aonRuns s = true → s.tim.slew = none → s.clk.slowLrc = true → s.clk.meas = none → i59On s = true →
      exec .slowTick s = .next { s with tim := { s.tim with
        dt := s.tim.dt + 32 + (s.tim.frac.n + 768) / 1000, frac := { s.tim.frac with n := (s.tim.frac.n + 768) % 1000 },
        err := errAdd s.tim.err (32768 * 131072 * 31000), ticks := (s.tim.ticks + 1) % 2 ^ 40, fastN := 0,
        fastRan := fastRuns s } }) ∧
    (∀ s sl, aonRuns s = true → s.tim.slew = some sl → s.clk.slowLrc = false → i59On s = true →
      sl.true_ + 32 < ((s.tim.dt + 16 : Nat) : Int) →
      exec .slowTick s = .next { s with tim := { s.tim with
        dt := s.tim.dt + 16, slew := some ⟨sl.true_ + 32, sl.frac⟩,
        err := errAdd s.tim.err (32 * 131072000 * bits s.tim.cfg 11 0), ticks := (s.tim.ticks + 1) % 2 ^ 40, fastN := 0,
        fastRan := fastRuns s } })

/-- A failed clock source is replaced and recorded: XT32 by the LRC with the time UNCERTAIN, XT24 by FIO with a relock of the PLLs that
run, HRC by the keepers with I2 held in reset (05 R171, R172, 14 R586).
The slow clock goes back to XT32 at an edge (05 R173); the LRC's tick is measured against XT24 (05 R193); a PLL that loses lock
relocks, twice within 1 ms it resets the block (05 R171); FIO stops when nothing needs it (05 R170). -/
def Obligations.ClocksFailAndReturn : Prop :=
  (∀ freq n s, aonRuns s = true → s.clk.slowLrc = false → s.flt.recs.length < 32 →
    ∃ t, exec (.xt32Fail freq n) s = .next t ∧ t.clk = { s.clk with slowLrc := true, xt32Fail := true, meas := none } ∧
      t.tim.uncertain = true ∧
      (t.flt.recs.map (fun r => (r.code, r.cas))) = s.flt.recs.map (fun r => (r.code, r.cas)) ++ [(0x22, BitVec.ofNat 8 (b2n freq))] ∧
      t = { s with clk := t.clk, tim := t.tim, flt := t.flt, pwr := t.pwr, cp := t.cp, slip0 := t.slip0, slip1 := t.slip1 }) ∧
    (∀ freq s, aonRuns s = true → s.clk.xt24Run = true → s.flt.recs.length < 32 →
      ∃ t, exec (.xt24Fail freq) s = .next t ∧
        t.clk = { s.clk with xt24Run := false, meas := none, xt24Fail := true, pllFio := true, fioRun := true,
                             relock0 := s.clk.relock0 || pllsRun s, relock1 := s.clk.relock1 || pllsRun s } ∧
        (t.flt.recs.map (fun r => (r.code, r.cas))) = s.flt.recs.map (fun r => (r.code, r.cas)) ++ [(0x23, BitVec.ofNat 8 (b2n freq))] ∧
        t = { s with clk := t.clk, tim := t.tim, flt := t.flt, pwr := t.pwr, cp := t.cp, slip0 := t.slip0, slip1 := t.slip1 }) ∧
    (∀ freq s, aonRuns s = true → pdOn s 1 = true → s.clk.hrcFail = false → s.flt.recs.length < 32 →
      ∃ t, exec (.hrcFail freq) s = .next t ∧ t.clk = { s.clk with hrcFail := true } ∧
        t.isl = upd s.isl 2 (fun i => { i with held := true }) ∧
        (t.flt.recs.map (fun r => (r.code, r.cas))) = s.flt.recs.map (fun r => (r.code, r.cas)) ++ [(0x25, BitVec.ofNat 8 (b2n freq))] ∧
        t = { s with clk := t.clk, isl := t.isl, tim := t.tim, flt := t.flt, pwr := t.pwr, cp := t.cp, slip0 := t.slip0, slip1 := t.slip1 }) ∧
    (∀ s, aonRuns s = true → s.clk.slowLrc = true → s.tim.slew = none → i59On s = true →
    exec .xt32Return s = .next { s with
      clk := { s.clk with slowLrc := false, meas := none },
      tim := { s.tim with dt := s.tim.dt + 32, err := errAdd s.tim.err (32 * 131072000 * bits s.tim.cfg 11 0),
                          ticks := (s.tim.ticks + 1) % 2 ^ 40, fastN := 0, fastRan := fastRuns s } }) ∧
    (∀ c s, aonRuns s = true → s.clk.slowLrc = true → s.clk.xt24Run = true →
      exec (.lrcMeasureWindow c) s = .next { s with
        clk := { s.clk with meas := some (divEven ((c * 2 ^ 36 : Nat) : Int) (24000000 * 1024)).toNat } }) ∧
    (∀ pll1 w s, aonRuns s = true → pllsRun s = true → (w && (if pll1 then s.clk.lost1 else s.clk.lost0)) = false →
      ∃ t, exec (.pllLockLoss pll1 w) s = .next t ∧
        t.clk = { s.clk with lost0 := s.clk.lost0 || !pll1, relock0 := s.clk.relock0 || !pll1, lost1 := s.clk.lost1 || pll1,
                             relock1 := s.clk.relock1 || pll1 } ∧
        t.flt = (clkRec s 0x24 (BitVec.ofNat 8 (b2n pll1))).flt ∧
        t = { s with clk := t.clk, tim := t.tim, flt := t.flt, pwr := t.pwr, cp := t.cp, slip0 := t.slip0, slip1 := t.slip1 }) ∧
    (∀ pll1 s, aonRuns s = true → pllsRun s = true → (if pll1 then s.clk.lost1 else s.clk.lost0) = true →
      ∃ t, exec (.pllLockLoss pll1 true) s = .next t ∧ t.pwr.seq = .warm 0 ∧ t.boot.cause = 0x14) ∧
    (∀ s, fioWork s = false → exec .fioStop s = .next { s with clk := { s.clk with fioRun := false } })

/-- A warm reset commanded by the host (05 R176 to R180, R210): the cause and the count, every island but I0 to I2 in reset with its
epoch advanced, requests and registers of the port cleared but for the counts since power-on reset, no job and no model left, no pad
latched, no retrain request left; the event queue keeps its descriptor and its events (05 R190).
The end of a warm reset (05 R179): RUN, admission open, the supervisor ready. -/
def Obligations.WarmResetsHoldAndEndInRun : Prop :=
  (∀ v s, WinReaches 0x400101A4 s → bits v 31 16 = 0x7A3C → bit v 0 = true → s.isl.length = 64 → s.memOk →
    s.engs.all (fun g => g.cur.all (fun l => l.wbuf.isEmpty)) = true →
    ∃ t, exec (.rstCtrlWarm v) s = .next t ∧ t.pwr.seq = .warm 0 ∧ t.boot = { s.boot with cause := 0x10, warmCnt := satInc 0xFF s.boot.warmCnt } ∧
      (∀ i < 64, islSt t i =
        if i ≤ 2 ∨ islAbsent s i = true then islSt s i else { islSt s i with epoch := (islSt s i).epoch + 1, held := true }) ∧
      t.outstanding = [] ∧
      t.cp = { Cp.reset with errCmd := s.cp.errCmd, errTrunc := s.cp.errTrunc, errCrc := s.cp.errCrc } ∧
      t.ldg = { Ldg.reset with commits := s.ldg.commits, rejects := s.ldg.rejects, fails := s.ldg.fails } ∧ t.cap = Cap.reset ∧
      t.scs = [] ∧ t.sel = s.sel ∧ t.flt = s.flt ∧ t.hp = s.hp ∧ t.clay = s.clay ∧ t.scc = s.scc ∧ t.pwr.pads = 0 ∧
      (∀ x ∈ t.tiles, x.req = false ∧ x.defer = false) ∧ qd t 16383 = qd s 16383 ∧ t.qm.evq = s.qm.evq ∧
      (∀ a, a < 0x20000000 ∨ 0x20200000 ≤ a → readByte t a = readByte s a)) ∧
    (∀ s, s.pwr.seq = .warm 4 → s.pwr.warmPmic = false → s.pwr.deferred = none → s.pwr.opTgt = s.pwr.opCur → s.lc.op = .none →
    ∃ t, exec .warmResetDone s = .next t ∧ t.pwr.seq = .stable ∧ t.pwr.st = .run ∧ t.pwr.tgt = .run ∧ t.pwr.result = 1 ∧
      t.pwr.admission = true ∧ t.pwr.supRdy = true ∧ QdtMarks s t ∧
      t = { s with pwr := t.pwr, cp := t.cp, qm := t.qm, ecc := t.ecc, slip0 := t.slip0, slip1 := t.slip1 })

/-- An island reset that is not refused holds the island, advances its epoch and drops what it had asked for (05 R181, R182); its
release counts it (05 R182, R208). A refused one only sets REFUSED (05 R211).
The watchdog of the supervisor resets I21, with a fault record (01 R59).
Crossings between islands (01 R33 to R36, 05 R713): a stale one is dropped and counted at its target; one of the present epochs is
accepted, a reply ends its request; to an island held in reset it waits. -/
def Obligations.IslandsAreResetAndCrossed : Prop :=
  (∀ (v : Word) s, WinReaches 0x400101A8 s → bits v 31 16 = 0x1A5D → islRefused s (bits v 5 0) = true →
    exec (.islRst v) s = .next { s with clk := { s.clk with islRefused := true } }) ∧
    (∀ (v : Word) s, WinReaches 0x400101A8 s → bits v 31 16 = 0x1A5D → islRefused s (bits v 5 0) = false → s.isl.length = 64 →
      ∃ t, exec (.islRst v) s = .next t ∧ islSt t (bits v 5 0) =
          { islSt s (bits v 5 0) with epoch := (islSt s (bits v 5 0)).epoch + 1, held := true } ∧
        (∀ i < 64, i ≠ bits v 5 0 → islSt t i = islSt s i) ∧ t.clk.islBusy = [bits v 5 0] ∧ t.clk.islRefused = false ∧
        t.outstanding.all (fun x => x.src != bits v 5 0 && x.dst != bits v 5 0) = true ∧ t.fuses.lcf = s.fuses.lcf ∧ t.boot = s.boot ∧
        t.sel = s.sel ∧ t.scc = s.scc) ∧
    (∀ s i rest, s.clk.islBusy = i :: rest → i < 64 → s.isl.length = 64 → (pll0Fed i && s.clk.relock0) = false →
      ∃ t, exec .islandResetRelease s = .next t ∧
        islSt t i = { islSt s i with held := false, resets := satInc 0xFFFF (islSt s i).resets } ∧
        (∀ j < 64, j ≠ i → islSt t j = islSt s j) ∧ t.clk.islBusy = (i :: rest).filter (· != i) ∧
        t = { s with isl := t.isl, clk := t.clk, tiles := t.tiles, engs := t.engs, cp := t.cp, slip0 := t.slip0, slip1 := t.slip1 }) ∧
    (∀ s, pdOn s 5 = true → islRuns s 21 = true → s.boot.por = false → inWarm s = false → s.isl.length = 64 →
    s.flt.recs.length < 32 → s.outstanding = [] → s.engs.all (fun g => g.cur.isNone) = true → s.cap.inst = none →
    ∃ t, exec .supervisorWatchdog s = .next t ∧
      islSt t 21 = { islSt s 21 with epoch := (islSt s 21).epoch + 1, held := true } ∧ t.clk.islBusy = s.clk.islBusy ++ [21] ∧
      t.flt.recs.map (fun r => (r.code, r.cas)) = s.flt.recs.map (fun r => (r.code, r.cas)) ++ [(0x26, 0)] ∧ t.boot = s.boot ∧
      t.sel = s.sel ∧ t.mem = s.mem) ∧
    (∀ tag reply entry s, pdLevel s (islPd (tagDst tag)) ≠ .off → islAbsent s (tagDst tag) = false → tagFresh s tag = false →
    exec (.crossing tag reply entry) s = .next { s with
      isl := upd s.isl (tagDst tag) (fun i => { i with stale := satInc 0xFFFF i.stale }) }) ∧
    (∀ tag entry s, pdLevel s (islPd (tagDst tag)) ≠ .off → islAbsent s (tagDst tag) = false → tagFresh s tag = true →
      (islSt s (tagDst tag)).held = false →
      exec (.crossing tag false entry) s = .next { s with
        outstanding := s.outstanding ++ [⟨tagSrc tag, tagDst tag, BitVec.ofNat 4 (bits tag 3 0), entry⟩] }) ∧
    (∀ tag entry s, pdLevel s (islPd (tagDst tag)) ≠ .off → islAbsent s (tagDst tag) = false → tagFresh s tag = true →
      (islSt s (tagDst tag)).held = false →
      exec (.crossing tag true entry) s = .next { s with
        outstanding := dropFirst (fun y => y.src == tagDst tag && y.dst == tagSrc tag && y.txn == BitVec.ofNat 4 (bits tag 3 0))
          s.outstanding }) ∧
    (∀ tag reply entry s, pdLevel s (islPd (tagDst tag)) ≠ .off → islAbsent s (tagDst tag) = false → tagFresh s tag = true →
      (islSt s (tagDst tag)).held = true → exec (.crossing tag reply entry) s = .next s)

/-- Setting device time with the key (05 R204, R205): forward at once, back as a slew that shows the time it had and aims at the time set;
the bound and the quality are those given; only a forward set of a live sediment buffer closes open entries (10 R413). A write without
the key sets nothing.
At the slow edge at which half the tick no longer passes the true time, the slew ends with DT at the true time, and DT never steps back
(05 R195, R204). The alarm fires when DT reaches it, disarms, sets its interrupt source and is a wake source, which below RUN starts
an exit where it is enabled (05 R206, 04 R135). A write of `TIM_ALARM_HI` disarms it (05 R207). A read of `TIM_NOW_LO` latches time
and quality and returns the low word with its CRC (05 R209, 06 R230); one too early after FIO was asked for reads BUSY (06 R222); the
reads that came before it were served first. -/
def Obligations.TimeIsSetSlewedAndRead : Prop :=
  (∀ f s, Reaches f 0x77 0x7153 s → dtNow (instant (askFio s)) ≤ setTime s → offNow (instant (askFio s)) ≤ setTime s →
    ∃ t, exec (.timSetGo f 0x7153) s = .next t ∧ t.tim.slew = none ∧ t.tim.uncertain = false ∧ dtNow t = setTime s ∧
      t.tim.err = (if s.tim.setErr.toNat = 0xFFFFFFFF then errTop else s.tim.setErr.toNat * errScale) ∧ t.tim.errHib = 0 ∧
      (sedLive s = false → t.sed = s.sed ∧ t.mem = s.mem ∧ t.ecc = s.ecc) ∧ t.cp = linkedTo s.cp 0x77 0 f.seq ∧
      t = { s with tim := t.tim, cp := t.cp, clk := t.clk, sed := t.sed, mem := t.mem, ecc := t.ecc }) ∧
    (∀ f s, Reaches f 0x77 0x7153 s → setTime s < dtNow (instant (askFio s)) →
      ∃ t, exec (.timSetGo f 0x7153) s = .next t ∧
        t.tim.slew = some ⟨(setTime s : Int) - offNow (instant (askFio s)), ⟨0, 0⟩⟩ ∧ t.tim.uncertain = false ∧
        dtNow t = dtNow (instant (askFio s)) ∧
        t.tim.err = (if s.tim.setErr.toNat = 0xFFFFFFFF then errTop else s.tim.setErr.toNat * errScale) ∧ t.tim.errHib = 0 ∧
        t.cp = linkedTo s.cp 0x77 0 f.seq ∧ t = { s with tim := t.tim, cp := t.cp, clk := t.clk }) ∧
    (∀ f (key : BitVec 16) s, Reaches f 0x77 (key.setWidth 32) s → key ≠ 0x7153 →
      ∃ t, exec (.timSetGo f key) s = .next t ∧ t.tim = (askFio s).tim ∧ t.cp = linkedTo s.cp 0x77 0 f.seq ∧
        t = { s with tim := t.tim, cp := t.cp, clk := t.clk }) ∧
    (∀ s sl, aonRuns s = true → s.tim.slew = some sl →
      ((s.tim.dt + ((tickNow s).half s.tim.frac).1 : Nat) : Int) ≤ sl.true_ + ((tickNow s).full sl.frac).1 →
      ∃ t, exec .slewEnd s = .next t ∧ t.tim.slew = none ∧ (t.tim.dt : Int) = sl.true_ + ((tickNow s).full sl.frac).1 ∧
        s.tim.dt ≤ t.tim.dt ∧ t.tim.ticks = (s.tim.ticks + 1) % 2 ^ 40 ∧ t = { s with tim := t.tim }) ∧
    (∀ s, aonRuns s = true → s.tim.alarmEn = true → alarmTime s ≤ dtNow (instant s) → s.pwr.seq = .stable → s.pwr.st = .run →
      inTransition s = false →
      ∃ t, exec .alarmFire s = .next t ∧ t.tim.fired = true ∧ t.tim.alarmEn = false ∧
        t.cp = { s.cp with intStatus := s.cp.intStatus ||| 0b100000 } ∧
        t = { s with tim := t.tim, cp := t.cp, slip0 := t.slip0, slip1 := t.slip1 }) ∧
    (∀ s, aonRuns s = true → s.tim.alarmEn = true → alarmTime s ≤ dtNow (instant s) → s.pwr.seq = .stable → s.pwr.st ≠ .run →
      inTransition s = false →
      ∃ t, exec .alarmFire s = .next t ∧ t.tim.fired = true ∧ t.tim.alarmEn = false ∧ t.pwr.wakeSrc = s.pwr.wakeSrc ||| 0b10 ∧
        t.pwr.seq = (if s.pwr.wakeEn.getLsbD 1 then .exit 0 none 1 else .stable) ∧ t.pwr.st = s.pwr.st ∧
        t.cp = { s.cp with intStatus := s.cp.intStatus ||| 0b100001 } ∧
        t = { s with tim := t.tim, pwr := t.pwr, cp := t.cp, slip0 := t.slip0, slip1 := t.slip1 }) ∧
    (∀ f (v : Word) s, Reaches f 0x79 v s →
      ∃ t, exec (.timAlarmHiWrite f v) s = .next t ∧
        t.tim = { (askFio s).tim with alarmHi := v, alarmEn := false } ∧ t.cp = linkedTo s.cp 0x79 0 f.seq ∧
        t = { s with tim := t.tim, cp := t.cp, clk := t.clk }) ∧
    (∀ (r : Rd) s, cpServes s = true → addressed s r.addr = true → (r.early = false ∨ s.boot.strapCp = true) → r.pre = [] →
      ∃ t, exec (.timNowLoRead r) s = .next t ∧ t.tim.latDt = dtNow (instant (askFio s)) ∧
        t.tim.latQual = qualNow (instant (askFio s)) ∧ t.cp.disc = false ∧
        t.cp.resp.map (fun x => (bits x.status 7 5, x.data)) = some (0, BitVec.ofNat 32 (dtNow (instant (askFio s)))) ∧
        (∀ x ∈ t.cp.resp, x.crc = crc8 ([cpCmdByte false r.seq, 0x70, x.status] ++ beBytes x.data)) ∧
        t = { s with tim := t.tim, cp := t.cp, clk := t.clk }) ∧
    (∀ (r : Rd) s, cpServes s = true → addressed s r.addr = true → r.early = true → s.boot.strapCp = false → r.pre = [] →
      ∃ t, exec (.timNowLoRead r) s = .next t ∧ t.cp.resp.map (fun x => (bits x.status 7 5, x.data)) = some (4, 0) ∧
        t.tim = (askFio s).tim ∧ t = { s with tim := t.tim, cp := t.cp, clk := t.clk }) ∧
    (∀ (r : Rd) p ps s, r.pre = p :: ps → exec (.timNowLoRead r) s =
      exec (.timNowLoRead { r with pre := ps }) (readFrame p.1 false r.addr p.2 s))

/-! ### Control port, window, doorbells (chapter 06) -/

/-- A discarded frame sets `DISC`, which the next status byte carries and clears (06 R217), and `INT_STATUS.CPERR` (06 R234), and is
counted by its kind (06 R233, R235). A write frame whose CRC does not match has no other effect (06 R231).
A write frame that cannot reach a register (06 R237, R238, 16 R648) leaves its status in `CP_LINK` and changes nothing else; one that
reaches its register is served, its index and tag stand in `CP_LINK`.
Registers of the port (06 R257): `CP_SCRATCH` holds what is written, `CP_LOOP` its complement; `INT_STATUS` is W1C, `INT_EN` RW,
`INT_SET` sets bits of `INT_STATUS`. -/
def Obligations.FramesAreCountedAndReported : Prop :=
  (∀ cmd s, Instr.wf (.cpInvalidCommand cmd) = true → cpServes s = true →
    ∃ t, exec (.cpInvalidCommand cmd) s = .next t ∧
      t.cp = { s.cp with errCmd := satInc 0xFF s.cp.errCmd, disc := true, intStatus := s.cp.intStatus ||| 0x400 } ∧
      t = { s with cp := t.cp, clk := t.clk, tim := t.tim, slip0 := t.slip0, slip1 := t.slip1 }) ∧
    (∀ c s, (c = .cpTruncatedFrame ∨ c = .cpFrameTimeout) → cpServes s = true →
      ∃ t, exec c s = .next t ∧
        t.cp = { s.cp with errTrunc := satInc 0xFF s.cp.errTrunc, disc := true, intStatus := s.cp.intStatus ||| 0x400 } ∧
        t = { s with cp := t.cp, clk := t.clk, tim := t.tim, slip0 := t.slip0, slip1 := t.slip1 }) ∧
    (∀ f idx v s, frGood f idx v = false → cpServes s = true → addressed s f.addr = true →
      ∃ t, exec (.registerWrite f idx v) s = .next t ∧
        t.cp = { s.cp with errCrc := satInc 0xFFFF s.cp.errCrc, disc := true, intStatus := s.cp.intStatus ||| 0x400 } ∧
        t = { s with cp := t.cp, clk := t.clk, tim := t.tim, slip0 := t.slip0, slip1 := t.slip1 }) ∧
    (∀ (r : Rd) s, cpServes s = true → addressed s r.addr = true → r.pre = [] →
      ∃ t, exec (.timNowLoRead r) s = .next t ∧ t.cp.disc = false ∧ ∀ x ∈ t.cp.resp, x.status.getLsbD 0 = s.cp.disc) ∧
    (∀ f (idx : Byte) v s, Reaches f idx v s →
      ∃ t, exec (.registerWrite f idx v) s = .next t ∧ t.cp.wIdx = idx ∧ t.cp.wSeq = f.seq) ∧
    (∀ f (idx : Byte) v s st, cpServes s = true → addressed s f.addr = true → frGood f idx v = true → writeBar s idx.toNat = some st →
    ∃ t, exec (.registerWrite f idx v) s = .next t ∧ t.cp = linkedTo s.cp idx (BitVec.ofNat 3 st) f.seq ∧
      t = { s with cp := t.cp, clk := t.clk, tim := t.tim }) ∧
    (∀ f (v : Word) s, Reaches f 0x06 v s → ∃ t, exec (.registerWrite f 0x06 v) s = .next t ∧
    t.cp = linkedTo { s.cp with scratch := v } 0x06 0 f.seq ∧ regRead t 0x06 = v ∧ t = { s with cp := t.cp, clk := t.clk, tim := t.tim }) ∧
    (∀ f (v : Word) s, Reaches f 0xF0 v s → ∃ t, exec (.registerWrite f 0xF0 v) s = .next t ∧
      t.cp = linkedTo { s.cp with loop := ~~~v } 0xF0 0 f.seq ∧ regRead t 0xF0 = ~~~v ∧ t = { s with cp := t.cp, clk := t.clk, tim := t.tim }) ∧
    (∀ f (v : Word) s, Reaches f 0x20 v s → ∃ t, exec (.registerWrite f 0x20 v) s = .next t ∧
      t.cp = linkedTo { s.cp with intStatus := s.cp.intStatus &&& ~~~ v.setWidth 13 } 0x20 0 f.seq ∧
      t = { s with cp := t.cp, clk := t.clk, tim := t.tim, slip0 := t.slip0, slip1 := t.slip1 }) ∧
    (∀ f (v : Word) s, Reaches f 0x21 v s → ∃ t, exec (.registerWrite f 0x21 v) s = .next t ∧
      t.cp = linkedTo { s.cp with intEn := v.setWidth 13 } 0x21 0 f.seq ∧ regRead t 0x21 = v &&& 0x1FFF ∧
      t = { s with cp := t.cp, clk := t.clk, tim := t.tim, slip0 := t.slip0, slip1 := t.slip1 }) ∧
    (∀ f (v : Word) s, Reaches f 0x22 v s → ∃ t, exec (.intSet f v) s = .next t ∧
      t.cp = linkedTo { s.cp with intStatus := s.cp.intStatus ||| v.setWidth 13 } 0x22 0 f.seq ∧
      t = { s with cp := t.cp, clk := t.clk, tim := t.tim, slip0 := t.slip0, slip1 := t.slip1 })

/-- `CP_ID` reads 0x4F58_0B04 in every state (00 R10). -/
def Obligations.PortIdIsFixed : Prop := ∀ s : State, regRead s 0x00 = 0x4F580B04

/-- The window's address and prefetch (06 R243 to R246, R249): a write of `CP_IA_ADDR` drops bits 1 and 0 and starts a prefetch, an access
made then unless posted writes are still waiting; a read of `CP_IA_DATA` returns BUSY while it runs, else the word and its status, and
advances the address with `INC` = 1.
A prefetch ends with the status and the word of an access (06 R245), with the peer-reset status where its island was reset meanwhile
(01 R61); while its island is held in reset it waits (05 R713). -/
def Obligations.TheWindowPrefetches : Prop :=
  (∀ f (v : Word) s, Reaches f 0x30 v s →
    ∃ t, exec (.cpIaAddrWrite f v) s = .next t ∧
      t.win = { s.win with addr := v &&& 0xFFFFFFFC, pbusy := true, ppeer := false,
                           plate := s.win.posted.isEmpty && lateNow s (v &&& 0xFFFFFFFC).toNat } ∧
      t.cp = linkedTo s.cp 0x30 0 f.seq ∧ t = { s with win := t.win, cp := t.cp, clk := t.clk, tim := t.tim }) ∧
    (∀ (r : Rd) s, cpServes s = true → addressed s r.addr = true → (r.early = false ∨ s.boot.strapCp = true) → r.pre = [] →
      s.win.pbusy = true →
      ∃ t, exec (.cpIaDataRead r) s = .next t ∧ t.cp.resp.map (fun x => (x.status &&& 0xE0, x.data)) = some (0x80, 0) ∧ t.win = s.win ∧
        t = { s with cp := t.cp, clk := t.clk, tim := t.tim }) ∧
    (∀ (r : Rd) s, cpServes s = true → addressed s r.addr = true → (r.early = false ∨ s.boot.strapCp = true) → r.pre = [] →
      s.win.pbusy = false → inTransition s = false →
      ∃ t, exec (.cpIaDataRead r) s = .next t ∧
        t.cp.resp.map (fun x => (x.status &&& 0xE0, x.data)) = some (BitVec.ofNat 8 (s.win.rstat.toNat * 32), s.win.pdata) ∧
        t.win = (if s.win.inc then { s.win with last := s.win.pdata, laddr := s.win.addr, addr := s.win.addr + 4, pbusy := true,
                                                ppeer := false,
                                                plate := s.win.posted.isEmpty && lateNow s (s.win.addr + 4).toNat }
                 else { s.win with last := s.win.pdata, laddr := s.win.addr }) ∧
        t = { s with win := t.win, cp := t.cp, clk := t.clk, tim := t.tim }) ∧
    (∀ s, s.win.pbusy = true → s.win.posted = [] → s.win.ppeer = false → winWaits s s.win.addr.toNat false s.win.plate = false →
    exec .windowPrefetchDone s = .next { s with win := { s.win with
      pbusy := false, ppeer := false, plate := false,
      rstat := BitVec.ofNat 3 (winStatus s s.win.addr.toNat false s.win.plate),
      pdata := if winStatus s s.win.addr.toNat false s.win.plate = stOk then winData s s.win.addr.toNat else 0 } }) ∧
    (∀ s, s.win.pbusy = true → s.win.posted = [] → s.win.ppeer = true →
    exec .windowPrefetchDone s = .next { s with win := { s.win with
      pbusy := false, ppeer := false, plate := false, rstat := 3, pdata := 0 } }) ∧
    (∀ s, s.win.ppeer = false → winWaits s s.win.addr.toNat false s.win.plate = true → exec .windowPrefetchDone s = .next s)

/-- A write of `CP_IA_DATA` is posted, at most two at a time, a third turned away with BUSY (06 R247); the oldest posted write to memory
stores the word's four bytes at its address, every other byte staying, and its status stands in `CP_LINK` (06 R248); one that is turned
away changes nothing but leaves its status there. After the last one a prefetch that is due starts (06 R244). -/
def Obligations.WindowWritesArePosted : Prop :=
  (∀ f (v : Word) s, Reaches f 0x31 v s → s.win.posted.length < 2 →
    ∃ t, exec (.cpIaDataWrite f v) s = .next t ∧
      t.win.posted = s.win.posted ++ [⟨s.win.addr, v, f.seq, lateNow s s.win.addr.toNat, false⟩] ∧
      t.win.addr = (if s.win.inc then s.win.addr + 4 else s.win.addr) ∧
      t.cp = linkedTo s.cp 0x31 0 f.seq ∧ t = { s with win := t.win, cp := t.cp, clk := t.clk, tim := t.tim }) ∧
    (∀ f (v : Word) s, Reaches f 0x31 v s → 2 ≤ s.win.posted.length →
      ∃ t, exec (.cpIaDataWrite f v) s = .next t ∧ t.cp = linkedTo s.cp 0x31 4 f.seq ∧
        t = { s with cp := t.cp, clk := t.clk, tim := t.tim }) ∧
    (∀ s (p : PWrite) rest, s.win.posted = p :: rest → p.peerReset = false → s.memOk → winWaits s p.addr.toNat true p.late = false →
      winStatus s p.addr.toNat true p.late = stOk → i57Held s = false →
      (0x10000000 ≤ p.addr.toNat ∧ p.addr.toNat < 0x40000000 ∨ isClay p.addr.toNat = true ∧ isClay (p.addr.toNat + 3) = true) →
      ∃ t, exec .windowWriteDone s = .next t ∧
        t.win = { s.win with posted := rest, wstat := 0,
                             plate := if s.win.pbusy && rest.isEmpty then lateNow s s.win.addr.toNat else s.win.plate } ∧
        t.cp = linkedTo s.cp 0x31 0 p.seq ∧
        ((∀ k < 4, sceReserved (p.addr.toNat + k) = false) → readWord t p.addr.toNat = p.data) ∧
        (∀ a, a < p.addr.toNat ∨ p.addr.toNat + 4 ≤ a → readByte t a = readByte s a) ∧
        t = { s with win := t.win, cp := t.cp, mem := t.mem, clay := t.clay, ecc := t.ecc }) ∧
    (∀ s (p : PWrite) rest st, s.win.posted = p :: rest → p.peerReset = false → winWaits s p.addr.toNat true p.late = false →
      winStatus s p.addr.toNat true p.late = st → st ≠ stOk → i57Held s = false →
      ∃ t, exec .windowWriteDone s = .next t ∧ t.win.posted = rest ∧ t.win.wstat = BitVec.ofNat 3 st ∧
        t.cp = linkedTo s.cp 0x31 (BitVec.ofNat 3 st) p.seq ∧ t = { s with win := t.win, cp := t.cp })

/-- Doorbells (06 R252 to R255, 14 R567): to a command queue with room the write pointer advances and the descriptors come into service;
before the supervisor is ready it is held, the seventeenth turned away; the oldest held one then takes effect. In WATCH and HIBERNATE it
is discarded with DOMAIN_OFF and wakes the block (04 R134, R139). -/
def Obligations.DoorbellsEnqueueDescriptors : Prop :=
  (∀ f (v : Word) s, Reaches f 0x40 v s → dbOpen s = true → s.db.fifo = [] → s.pwr.seq = .stable →
    (qd s (bits v 13 0)).cls = clsCmd → (qd s (bits v 13 0)).diff (qd s (bits v 13 0)).wp (qd s (bits v 13 0)).rp + bits v 31 16 ≤ (qd s (bits v 13 0)).depth →
    ∃ t, exec (.doorbell f v) s = .next t ∧
      (qd t (bits v 13 0)).wp = (qd s (bits v 13 0)).plus (qd s (bits v 13 0)).wp (bits v 31 16) ∧
      t.ldg.service = s.ldg.service ++ [(bits v 13 0, (qd s (bits v 13 0)).plus (qd s (bits v 13 0)).wp (bits v 31 16))] ∧
      t.db = { s.db with last := dbOk, qid := BitVec.ofNat 14 (bits v 13 0) } ∧ t.cp = linkedTo s.cp 0x40 0 f.seq ∧ QdtMarks s t ∧
      t = { s with qm := t.qm, ecc := t.ecc, ldg := t.ldg, db := t.db, cp := t.cp, clk := t.clk, tim := t.tim }) ∧
    (∀ f (v : Word) s, Reaches f 0x40 v s → dbOpen s = false → s.pwr.seq = .stable → s.pwr.st = .run → s.db.fifo.length < 16 →
      ∃ t, exec (.doorbell f v) s = .next t ∧
        t.db = { s.db with fifo := s.db.fifo ++ [(BitVec.ofNat 14 (bits v 13 0), bits v 31 16)], last := dbHeld,
                           qid := BitVec.ofNat 14 (bits v 13 0) } ∧
        t.cp = linkedTo s.cp 0x40 0 f.seq ∧ t = { s with db := t.db, cp := t.cp, clk := t.clk, tim := t.tim }) ∧
    (∀ f (v : Word) s, Reaches f 0x40 v s → dbOpen s = false → s.pwr.seq = .stable → s.pwr.st = .run → 16 ≤ s.db.fifo.length →
      ∃ t, exec (.doorbell f v) s = .next t ∧
        t.db = { s.db with rejCnt := satInc 0xFF s.db.rejCnt, last := dbRejFull, qid := BitVec.ofNat 14 (bits v 13 0) } ∧
        t.cp = linkedTo s.cp 0x40 4 f.seq ∧ t = { s with db := t.db, cp := t.cp, clk := t.clk, tim := t.tim }) ∧
    (∀ s (q : BitVec 14) n rest, s.db.fifo = (q, n) :: rest → dbOpen s = true → (qd s q.toNat).cls = clsCmd →
      (qd s q.toNat).diff (qd s q.toNat).wp (qd s q.toNat).rp + n ≤ (qd s q.toNat).depth →
      ∃ t, exec .doorbellRelease s = .next t ∧ (qd t q.toNat).wp = (qd s q.toNat).plus (qd s q.toNat).wp n ∧
        t.ldg.service = s.ldg.service ++ [(q.toNat, (qd s q.toNat).plus (qd s q.toNat).wp n)] ∧
        t.db = { s.db with fifo := rest, last := dbOk, qid := q } ∧ QdtMarks s t ∧
        t = { s with qm := t.qm, ecc := t.ecc, ldg := t.ldg, db := t.db }) ∧
    (∀ f (v : Word) s, Reaches f 0x40 v s → s.pwr.seq = .stable → (s.pwr.st = .watch ∨ s.pwr.st = .hibernate) →
      inTransition s = false →
      ∃ t, exec (.doorbell f v) s = .next t ∧ t.db = { s.db with last := dbDiscarded, qid := BitVec.ofNat 14 (bits v 13 0) } ∧
        t.pwr.seq = .exit 0 none 1 ∧ t.pwr.wakeSrc = s.pwr.wakeSrc ||| 1 ∧ t.pwr.st = s.pwr.st ∧
        t.cp = linkedTo { s.cp with intStatus := s.cp.intStatus ||| 1 } 0x40 2 f.seq ∧
        t = { s with db := t.db, pwr := t.pwr, cp := t.cp, clk := t.clk, tim := t.tim, slip0 := t.slip0, slip1 := t.slip1 })

/-! ### Slip ports (chapter 07) -/

/-- A write of `SLPn_CTRL` that sets `EN` starts training in CLOCK (07 R264, R276); one that clears it disables the port, whose sequence
state and replay buffer are gone (R309); one with RETRAIN takes an enabled link down to CLOCK (R306). Each change of the link state is
an interrupt source (06 R242). -/
def Obligations.PortControlDrivesTheLink : Prop :=
  (∀ f p (v : Word) s, Reaches f (BitVec.ofNat 8 (slpIdx p)) v s → bit v 0 = true → (slipSt s p).en = false → (slipSt s p).state = .disabled →
    ∃ t, exec (.slpEnable f p v) s = .next t ∧ (slipSt t p).state = .clock ∧ (slipSt t p).en = true ∧
      bits (slipSt t p).ctrl 2 1 = (if bits v 2 1 = 3 then bits (slipSt s p).ctrl 2 1 else bits v 2 1) ∧
      bit (slipSt t p).ctrl 3 = bit v 3 ∧ bit (slipSt t p).ctrl 4 = false ∧
      slipSt t p = { slipSt s p with ctrl := (slipSt t p).ctrl, state := .clock, vc0 := (slipSt t p).vc0 } ∧
      t.cp = linkedTo { s.cp with intStatus := s.cp.intStatus ||| BitVec.ofNat 13 (2 ^ portInt p) } (BitVec.ofNat 8 (slpIdx p)) 0 f.seq ∧
      t = { s with cp := t.cp, clk := t.clk, tim := t.tim, slip0 := t.slip0, slip1 := t.slip1 }) ∧
    (∀ f p (v : Word) s, Reaches f (BitVec.ofNat 8 (slpIdx p)) v s → bit v 0 = false → (slipSt s p).en = true → (slipSt s p).state ≠ .disabled →
      ∃ t, exec (.slpDisable f p v) s = .next t ∧ (slipSt t p).state = .disabled ∧ (slipSt t p).en = false ∧
        (slipSt t p).nextRx = 0 ∧ (slipSt t p).txSeq = 0 ∧ (slipSt t p).fresh = true ∧ (slipSt t p).replay = [] ∧
        t.cp = linkedTo { s.cp with intStatus := s.cp.intStatus ||| BitVec.ofNat 13 (2 ^ portInt p) } (BitVec.ofNat 8 (slpIdx p)) 0 f.seq ∧
        QdtMarks s t ∧ t = { s with cp := t.cp, clk := t.clk, tim := t.tim, slip0 := t.slip0, slip1 := t.slip1, qm := t.qm, ecc := t.ecc }) ∧
    (∀ f p (v : Word) s, Reaches f (BitVec.ofNat 8 (slpIdx p)) v s → bit v 0 = true → bit v 4 = true → (slipSt s p).en = true → (slipSt s p).state = .up →
      ∃ t, exec (.slpRetrain f p v) s = .next t ∧ (slipSt t p).state = .clock ∧ (slipSt t p).down = true ∧
        (slipSt t p).downs = satInc 0xFF (slipSt s p).downs ∧ (slipSt t p).resend = 0 ∧ bit (slipSt t p).ctrl 4 = false ∧
        (slipSt t p).replay = (slipSt s p).replay ∧ (slipSt t p).nextRx = (slipSt s p).nextRx ∧
        (slipSt t p).txSeq = (slipSt s p).txSeq ∧
        t.cp = linkedTo { s.cp with intStatus := s.cp.intStatus ||| BitVec.ofNat 13 (2 ^ portInt p) } (BitVec.ofNat 8 (slpIdx p)) 0 f.seq ∧
        t = { s with cp := t.cp, clk := t.clk, tim := t.tim, slip0 := t.slip0, slip1 := t.slip1 })

/-- Training goes from CLOCK to ALIGN to CONFIG (07 R276); a state that lasts 2 ms goes back to CLOCK with its cause in `FAIL` (R278),
a free value where the spec names none, and 3 for a CONFIG state in which no TS set came (the model's choice, logs 27, 72).
In IDLE a training peer wakes the block, and it cuts an entry under way before AP5 (R312, 04 R134, R137).
TS sets (07 R276 to R281): in CONFIG a good one counts and a bad one breaks the run; the sixteenth acknowledged one leads to CREDIT,
where the counts of both sides restart (R282; that `CUM` starts at the buffer's units is DEDUCED, log 28); in UP any one takes the link
down to CONFIG (R279, R306). -/
def Obligations.TrainingLeadsToCredit : Prop :=
  (∀ p s, portRuns s p = true → (slipSt s p).state = .clock →
    ∃ t, exec (.trainClockOk p) s = .next t ∧ slipSt t p = { slipSt s p with state := .align, vc0 := (slipSt t p).vc0 } ∧
      t.cp = { s.cp with intStatus := s.cp.intStatus ||| BitVec.ofNat 13 (2 ^ portInt p) } ∧
      t = { s with cp := t.cp, slip0 := t.slip0, slip1 := t.slip1 }) ∧
    (∀ p s, portRuns s p = true → (slipSt s p).state = .align →
      ∃ t, exec (.trainAligned p) s = .next t ∧
        slipSt t p = { slipSt s p with state := .config, tsRun := 0, tsAckedRx := 0, tsAckedTx := 0, acked := false, tsCause := 0,
                                       tsSeen := false, vc0 := (slipSt t p).vc0 } ∧
        t.cp = { s.cp with intStatus := s.cp.intStatus ||| BitVec.ofNat 13 (2 ^ portInt p) } ∧
        t = { s with cp := t.cp, slip0 := t.slip0, slip1 := t.slip1 }) ∧
    (∀ p s, portRuns s p = true → ((slipSt s p).state = .clock ∨ (slipSt s p).state = .align) →
      ∃ t, exec (.trainStateTimeout p) s = .next t ∧ (slipSt t p).state = .clock ∧
        (slipSt t p).fail = (if (slipSt s p).state = .clock then 1 else 2) ∧ bit (slipSt t p).ctrl 4 = false ∧
        t.cp = { s.cp with intStatus := s.cp.intStatus ||| BitVec.ofNat 13 (2 ^ portInt p) } ∧
        t = { s with cp := t.cp, slip0 := t.slip0, slip1 := t.slip1 }) ∧
    (∀ p s, portRuns s p = true → ((slipSt s p).state = .config ∨ (slipSt s p).state = .credit) →
      ∃ t, exec (.trainStateTimeout p) s = .next t ∧ (slipSt t p).state = .clock ∧ bit (slipSt t p).ctrl 4 = false ∧
        (slipSt t p).fail =
          (if (slipSt s p).state = .config ∧ (slipSt s p).tsCause ≠ 0 then (slipSt s p).tsCause
           else if (slipSt s p).state = .config ∧ (slipSt s p).tsSeen = false then 3 else (Config.trainCause s.freeK).toNat) ∧
        t.cp = { s.cp with intStatus := s.cp.intStatus ||| BitVec.ofNat 13 (2 ^ portInt p) } ∧
        t = { s with cp := t.cp, slip0 := t.slip0, slip1 := t.slip1, freeK := t.freeK }) ∧
    (∀ p s step (qw : BitVec 4) r, s.pwr.seq = .entry step qw .none r → step ≠ 2 → step < 6 → portPresent s p = true →
      (slipSt s p).en = true → pdPowered s (portPd p) = true → portPads s p = false → s.pwr.wakeEn.getLsbD 5 = true →
      ∃ t, exec (.slipTrainingDetect p) s = .next t ∧
        t.pwr = { s.pwr with seq := .entry step qw .wake r, wakeSrc := s.pwr.wakeSrc ||| 0b100000 } ∧
        t.cp = { s.cp with intStatus := s.cp.intStatus ||| 1 } ∧
        t = { s with pwr := t.pwr, cp := t.cp, clk := t.clk, tim := t.tim, slip0 := t.slip0, slip1 := t.slip1 }) ∧
    (∀ p s, s.pwr.st = .idle → s.pwr.seq = .stable → inTransition s = false → portPresent s p = true → (slipSt s p).en = true →
      pdPowered s (portPd p) = true → portPads s p = false → s.pwr.wakeEn.getLsbD 5 = true →
      ∃ t, exec (.slipTrainingDetect p) s = .next t ∧ t.pwr.seq = .exit 0 none 1 ∧ t.pwr.tgt = .run ∧
        t.pwr.wakeSrc = s.pwr.wakeSrc ||| 0b100000 ∧ t.cp = { s.cp with intStatus := s.cp.intStatus ||| 1 } ∧
        t = { s with pwr := t.pwr, cp := t.cp, clk := t.clk, tim := t.tim, slip0 := t.slip0, slip1 := t.slip1 }) ∧
    (∀ p (ts : TsSet) s, portRuns s p = true → (slipSt s p).state = .config → tsGood (slipSt s p) ts = true → ts.fresh = false →
    (slipSt s p).tsAckedRx < 15 →
    ∃ t, exec (.tsSetReceive p ts) s = .next t ∧ (slipSt t p).state = .config ∧ (slipSt t p).tsRun = satInc 16 (slipSt s p).tsRun ∧
      (slipSt t p).tsAckedRx = (if ts.acked then (slipSt s p).tsAckedRx + 1 else 0) ∧ (slipSt t p).peerNext = ts.nextRx ∧
      t = updSlip s p (fun _ => slipSt t p)) ∧
    (∀ p (ts : TsSet) s, portRuns s p = true → (slipSt s p).state = .config → tsGood (slipSt s p) ts = true → ts.fresh = false →
      ts.acked = true → (slipSt s p).tsAckedRx = 15 → 15 ≤ (slipSt s p).tsAckedTx → (slipSt s p).tsAckedTx ≤ 16 →
      (slipSt s p).acked = true →
      ∃ t, exec (.tsSetReceive p ts) s = .next t ∧ (slipSt t p).state = .credit ∧ (slipSt t p).peerCum = [0, 0, 0] ∧
        (slipSt t p).sent = [0, 0, 0] ∧ (slipSt t p).cum = [16, 192, 0, 0] ∧
        t.cp = { s.cp with intStatus := s.cp.intStatus ||| BitVec.ofNat 13 (2 ^ portInt p) } ∧
        t = { s with cp := t.cp, slip0 := t.slip0, slip1 := t.slip1 }) ∧
    (∀ p (ts : TsSet) s, portRuns s p = true → (slipSt s p).state = .config → tsGood (slipSt s p) ts = false →
      ∃ t, exec (.tsSetReceive p ts) s = .next t ∧
        slipSt t p = { slipSt s p with tsRun := 0, tsAckedRx := 0, tsCause := (slipSt t p).tsCause } ∧
        t = updSlip s p (fun _ => slipSt t p)) ∧
    (∀ p (ts : TsSet) s, portRuns s p = true → (slipSt s p).state = .up → ts.good = true → ts.lanesOk = true → ts.skewed = false →
      ts.fresh = false →
      ∃ t, exec (.tsSetReceive p ts) s = .next t ∧ (slipSt t p).state = .config ∧ (slipSt t p).down = true ∧
        (slipSt t p).downs = satInc 0xFF (slipSt s p).downs ∧ (slipSt t p).replay = (slipSt s p).replay ∧
        t.cp = { s.cp with intStatus := s.cp.intStatus ||| BitVec.ofNat 13 (2 ^ portInt p) } ∧
        t = { s with cp := t.cp, slip0 := t.slip0, slip1 := t.slip1 })

/-- Credits (07 R282, R285): in UP a CREDIT sets what the port may send; the fourth VC's in the CREDIT state brings the link up; a
refresh advertises the present counts.
Acknowledgement and replay (07 R293, R294): an ACK frees the frames up to its number; a NAK frees those before it and sends the rest
again, as a replay timeout sends all; the fifth replay without progress takes the link down; a number that no frame in the replay buffer
carries is ignored (R295). -/
def Obligations.CreditsAndAcknowledgementsCount : Prop :=
  (∀ p (vc : BitVec 2) cum s, portRuns s p = true → (slipSt s p).state = .up →
    exec (.creditReceive p vc cum) s =
      .next (updSlip s p (fun x => { x with peerCum := upd x.peerCum vc.toNat (fun _ => cum.toNat) }))) ∧
    (∀ p (vc : BitVec 2) cum s, portRuns s p = true → (slipSt s p).state = .credit → (slipSt s p).replay = [] →
      (upd (slipSt s p).gotCredit vc.toNat (fun _ => true)).all (fun b => b) = true →
      ∃ t, exec (.creditReceive p vc cum) s = .next t ∧ (slipSt t p).state = .up ∧ (slipSt t p).fresh = false ∧
        (slipSt t p).peerCum = upd (slipSt s p).peerCum vc.toNat (fun _ => cum.toNat) ∧
        t.cp = { s.cp with intStatus := s.cp.intStatus ||| BitVec.ofNat 13 (2 ^ portInt p) } ∧
        t = { s with cp := t.cp, slip0 := t.slip0, slip1 := t.slip1 }) ∧
    (∀ p s, portRuns s p = true → (slipSt s p).state = .up → portFrozen s = false →
      exec (.creditRefresh p) s = .next (updSlip s p (fun x => { x with advert := x.cum }))) ∧
    (∀ p n s i, portRuns s p = true → (slipSt s p).state = .up → findSeq (slipSt s p) n = some i →
    ∃ t, exec (.ackReceive p n) s = .next t ∧
      slipSt t p = { slipSt s p with replay := (slipSt s p).replay.drop (i + 1), fruitless := 0,
                                     resend := Nat.min (slipSt s p).resend ((slipSt s p).replay.length - (i + 1)) } ∧
      QdtMarks s t ∧ t = { updSlip s p (fun _ => slipSt t p) with qm := t.qm, ecc := t.ecc }) ∧
    (∀ p n s i, portRuns s p = true → (slipSt s p).state = .up → findSeq (slipSt s p) n = some i →
      (0 < i ∨ (slipSt s p).fruitless < 4) →
      ∃ t, exec (.nakReceive p n) s = .next t ∧
        slipSt t p = { slipSt s p with replay := (slipSt s p).replay.drop i, resend := ((slipSt s p).replay.drop i).length,
                                       replays := satInc 0xFF (slipSt s p).replays,
                                       fruitless := if i = 0 then (slipSt s p).fruitless + 1 else 1 } ∧
        QdtMarks s t ∧ t = { updSlip s p (fun _ => slipSt t p) with qm := t.qm, ecc := t.ecc }) ∧
    (∀ p n s, portRuns s p = true → (slipSt s p).state = .up → findSeq (slipSt s p) n = none →
      exec (.ackReceive p n) s = .next s ∧ exec (.nakReceive p n) s = .next s) ∧
    (∀ p s, portRuns s p = true → (slipSt s p).state = .up → (slipSt s p).resend < (slipSt s p).replay.length →
      (slipSt s p).fruitless < 4 →
      exec (.replayTimeout p) s = .next (updSlip s p (fun x =>
        { x with resend := x.replay.length, replays := satInc 0xFF x.replays, fruitless := x.fruitless + 1 }))) ∧
    (∀ p s, portRuns s p = true → (slipSt s p).state = .up → (slipSt s p).resend < (slipSt s p).replay.length →
      4 ≤ (slipSt s p).fruitless →
      ∃ t, exec (.replayTimeout p) s = .next t ∧ (slipSt t p).state = .clock ∧ (slipSt t p).down = true ∧
        (slipSt t p).downs = satInc 0xFF (slipSt s p).downs ∧ (slipSt t p).replay = (slipSt s p).replay ∧
        t = { s with cp := t.cp, slip0 := t.slip0, slip1 := t.slip1 })

/-- A queue's ring lies in TSR. -/
abbrev RingInTsr (d : QDesc) : Prop := d.base * 256 + d.depth * d.item ≤ 0x800000

/-- `t` has what `s` has in queue q, and the n items of `bs` behind it; every byte outside the places of those items reads as before. -/
abbrev ItemsAppended (s t : State) (q n : Nat) (bs : List Byte) : Prop :=
  (qd t q).wp = (qd s q).plus (qd s q).wp n ∧ (qd t q).rp = (qd s q).rp ∧ (qd t q).fp = (qd s q).fp ∧
    (∀ k < n, readBytes t ((qd s q).addr ((qd s q).wp + k)) (qd s q).item =
      (bs.drop (k * (qd s q).item)).take (qd s q).item) ∧
    ∀ a, (∀ k < n, a < (qd s q).addr ((qd s q).wp + k) ∨ (qd s q).addr ((qd s q).wp + k) + (qd s q).item ≤ a) →
      readByte t a = readByte s a

/-- An ITEM frame in sequence whose queue has space is acknowledged and its items are written and published together (07 R287, R289, R296,
R299); the frame at the head of VC1 that waited for space likewise, and the next one waits on where its queue has none (R300); while the
head waits, a frame that arrives goes behind it. -/
def Obligations.ItemFramesFillTheirQueue : Prop :=
  (∀ p (fr : SlipFrame) s, Instr.wf (.itemFrameReceive p fr) = true → receives s p = true → fr.seq = (slipSt s p).nextRx →
    frameCost fr ≤ 192 - nth (slipSt s p).used 1 0 → ingressOk s p fr = true → (slipSt s p).rxBuf = [] → ingressFits s p fr = true →
    RingInTsr (qd s fr.qid.toNat) → s.memOk →
    ∃ t, exec (.itemFrameReceive p fr) s = .next t ∧ (slipSt t p).nextRx = (slipSt s p).nextRx + 1 ∧ (slipSt t p).lastAck = some fr.seq ∧
      (slipSt t p).nakHold = false ∧
      ItemsAppended s t fr.qid.toNat (fr.len.toNat / (qd s fr.qid.toNat).item) fr.payload ∧
      (qd t fr.qid.toNat).pp = (qd t fr.qid.toNat).wp ∧
      t = { updSlip s p (fun _ => slipSt t p) with qm := t.qm, mem := t.mem, ecc := t.ecc }) ∧
    (∀ p (fr : SlipFrame) s, Instr.wf (.itemFrameReceive p fr) = true → receives s p = true → fr.seq = (slipSt s p).nextRx →
      fr.vc = 1 → frameCost fr ≤ 192 - nth (slipSt s p).used 1 0 → (slipSt s p).rxBuf ≠ [] →
      exec (.itemFrameReceive p fr) s = .next (updSlip s p (fun x =>
        { x with nextRx := x.nextRx + 1, lastAck := some fr.seq, nakHold := false, used := upd x.used 1 (· + frameCost fr),
                 rxBuf := x.rxBuf ++ [fr] }))) ∧
    (∀ p (fr : SlipFrame) rest s, (slipSt s p).rxBuf = fr :: rest → portRuns s p = true → fr.typ = 1 → ingressOk s p fr = true →
      ingressFits s p fr = true → fr.wf = true →
      (rest = [] ∨ ∃ next r, rest = next :: r ∧ serveFrame (ingressWrite s p fr) p next = none) → RingInTsr (qd s fr.qid.toNat) → s.memOk →
      ∃ t, exec (.ingressFrameWrite p) s = .next t ∧ (slipSt t p).rxBuf = rest ∧
        ItemsAppended s t fr.qid.toNat (fr.len.toNat / (qd s fr.qid.toNat).item) fr.payload ∧
        (qd t fr.qid.toNat).pp = (qd t fr.qid.toNat).wp ∧
        t = { updSlip s p (fun _ => slipSt t p) with qm := t.qm, mem := t.mem, ecc := t.ecc })

/-- Silence takes the link down to CLOCK (07 R306); bad columns and bad frames are counted, a bad frame is answered by one NAK until the
hold-off ends, one ahead of its turn without a count (R268, R292).
A PING in sequence is answered by a PONG of its payload that names its number (07 R274), a PONG is taken (R271), a frame of a reserved
type or channel is acknowledged, counted and its header recorded (R296, R298). A frame out of sequence is not taken: behind, the last
number is acknowledged again; ahead, a NAK goes out (R290, R292). One that does not fit the buffer, as any on VC2 and VC3, takes the link
down (R283, R287). -/
def Obligations.OtherReceptionsAreAnswered : Prop :=
  (∀ p s, portRuns s p = true → (slipSt s p).state = .up →
    ∃ t, exec (.rxSilenceTimeout p) s = .next t ∧ (slipSt t p).state = .clock ∧ (slipSt t p).down = true ∧
      (slipSt t p).downs = satInc 0xFF (slipSt s p).downs ∧ (slipSt t p).replay = (slipSt s p).replay ∧
      t.cp = { s.cp with intStatus := s.cp.intStatus ||| BitVec.ofNat 13 (2 ^ portInt p) } ∧
      t = { s with cp := t.cp, slip0 := t.slip0, slip1 := t.slip1 }) ∧
    (∀ p c s, Instr.wf (.badControlColumn p c) = true → portRuns s p = true → (slipSt s p).en = true →
      exec (.badControlColumn p c) s = .next (updSlip s p (fun x => { x with rxbad := satInc 0xFF x.rxbad }))) ∧
    (∀ p k s, Instr.wf (.badFrame p k) = true → receives s p = true → (slipSt s p).nakHold = false →
      exec (.badFrame p k) s = .next (updSlip s p (fun x =>
        { x with lastNak := some x.nextRx, nakHold := true, rxbad := if k = .ahead then x.rxbad else satInc 0xFF x.rxbad }))) ∧
    (∀ p k s, Instr.wf (.badFrame p k) = true → receives s p = true → (slipSt s p).nakHold = true →
      exec (.badFrame p k) s = .next (updSlip s p (fun x =>
        { x with rxbad := if k = .ahead then x.rxbad else satInc 0xFF x.rxbad }))) ∧
    (∀ p s, exec (.nakHoldoffExpiry p) s = .next (updSlip s p (fun x => { x with nakHold := false }))) ∧
    (∀ p (fr : SlipFrame) s, Instr.wf (.pingReceive p fr) = true → receives s p = true → fr.seq = (slipSt s p).nextRx →
    frameCost fr ≤ 16 - nth (slipSt s p).used 0 0 → fr.len.toNat ≤ 64 → (slipSt s p).vc0.length < 16 →
    ∃ t, exec (.pingReceive p fr) s = .next t ∧ (slipSt t p).nextRx = (slipSt s p).nextRx + 1 ∧ (slipSt t p).lastAck = some fr.seq ∧
      (slipSt t p).vc0 = (slipSt s p).vc0 ++ [withCrc ⟨5, 0, 0, fr.len, 0, fr.seq, 0, false, 0, 0, 0, fr.payload, 0⟩] ∧
      t = updSlip s p (fun _ => slipSt t p)) ∧
    (∀ p (fr : SlipFrame) s, Instr.wf (.pongReceive p fr) = true → receives s p = true → fr.seq = (slipSt s p).nextRx →
      frameCost fr ≤ 16 - nth (slipSt s p).used 0 0 → fr.len.toNat ≤ 64 →
      ∃ t, exec (.pongReceive p fr) s = .next t ∧ (slipSt t p).nextRx = (slipSt s p).nextRx + 1 ∧ (slipSt t p).lastAck = some fr.seq ∧
        (slipSt t p).vc0 = (slipSt s p).vc0 ∧ (slipSt t p).rej = (slipSt s p).rej ∧ t = updSlip s p (fun _ => slipSt t p)) ∧
    (∀ p (fr : SlipFrame) s, Instr.wf (.reservedTypeFrameReceive p fr) = true → receives s p = true → fr.seq = (slipSt s p).nextRx →
      fr.vc = 1 → frameCost fr ≤ 192 - nth (slipSt s p).used 1 0 → (slipSt s p).rxBuf = [] →
      ∃ t, exec (.reservedTypeFrameReceive p fr) s = .next t ∧ (slipSt t p).nextRx = (slipSt s p).nextRx + 1 ∧
        (slipSt t p).lastAck = some fr.seq ∧ (slipSt t p).rej = satInc 0xFF (slipSt s p).rej ∧ (slipSt t p).lastRej = frameHead fr ∧
        t = updSlip s p (fun _ => slipSt t p)) ∧
    (∀ p (fr : SlipFrame) s, Instr.wf (.reservedTypeFrameReceive p fr) = true → receives s p = true → fr.seq = (slipSt s p).nextRx →
      2 ≤ fr.vc.toNat →
      ∃ t, exec (.reservedTypeFrameReceive p fr) s = .next t ∧ (slipSt t p).state = .clock ∧ (slipSt t p).down = true ∧
        (slipSt t p).nextRx = (slipSt s p).nextRx ∧ (slipSt t p).rej = (slipSt s p).rej ∧
        t = { s with cp := t.cp, slip0 := t.slip0, slip1 := t.slip1 }) ∧
    (∀ p (fr : SlipFrame) s, Instr.wf (.pingReceive p fr) = true → receives s p = true → fr.seq ≠ (slipSt s p).nextRx →
      exec (.pingReceive p fr) s = .next (updSlip s p (fun x =>
        if (x.nextRx - fr.seq).toNat ≤ 32768 then { x with lastAck := some (x.nextRx - 1) }
        else if x.nakHold then x else { x with lastNak := some x.nextRx, nakHold := true })))

/-- Sending (07 R284, R288, R293, R301, R305): a replay goes before anything new; else the oldest VC0 frame goes out with the next number,
the present time and its CRC, and is kept for replay; else a frame of a queue whose turn it is, whose items leave the queue. While the
replay buffer cannot hold the frame, nothing new goes (R295). -/
def Obligations.EgressSendsInTurn : Prop :=
  (∀ p (x : TxFrame) s, portRuns s p = true → (slipSt s p).state = .up → bridgeUp s p = true → (slipSt s p).resend ≠ 0 →
    (slipSt s p).replay[(slipSt s p).replay.length - (slipSt s p).resend]? = some x → x.charged = true →
    exec (.egressFrameSend p) s = .next (updSlip s p (fun y => { y with resend := y.resend - 1 }))) ∧
    (∀ p (fr : SlipFrame) rest s, portRuns s p = true → (slipSt s p).state = .up → bridgeUp s p = true → (slipSt s p).resend = 0 →
      portFrozen s = false → islRuns s 24 = true → pdOn s 7 = true → (slipSt s p).vc0 = fr :: rest →
      frameCost fr ≤ (slipSt s p).avail 0 → replayRoom (slipSt s p) fr = true →
      ∃ t, exec (.egressFrameSend p) s = .next t ∧ (slipSt t p).vc0 = rest ∧ (slipSt t p).txSeq = (slipSt s p).txSeq + 1 ∧
        (slipSt t p).replay = (slipSt s p).replay ++
          [⟨withCrc { fr with seq := (slipSt s p).txSeq, tstamp := BitVec.ofNat 32 (dtNow (instant s)), qual := qualNow (instant s) },
            0, true⟩] ∧
        t = { updSlip s p (fun _ => slipSt t p) with tim := t.tim }) ∧
    (∀ p (fr : SlipFrame) k q s, portRuns s p = true → (slipSt s p).state = .up → bridgeUp s p = true → (slipSt s p).resend = 0 →
      portFrozen s = false → islRuns s 24 = true → pdOn s 7 = true → (slipSt s p).vc0 = [] → (slipSt s p).lastVc2 = true →
      pickQueue s p 1 = some q → queueFrame s p q = some (fr, k) → 0 < k → (qd s q).cls ≠ clsUnused → replayRoom (slipSt s p) fr = true →
      ∃ t, exec (.egressFrameSend p) s = .next t ∧ (slipSt t p).txSeq = (slipSt s p).txSeq + 1 ∧ (slipSt t p).lastVc2 = false ∧
        (slipSt t p).replay = (slipSt s p).replay ++
          [⟨withCrc { fr with seq := (slipSt s p).txSeq, tstamp := BitVec.ofNat 32 (dtNow (instant s)), qual := qualNow (instant s) },
            k, true⟩] ∧
        (qd t q).rp = (qd s q).plus (qd s q).rp k ∧
        (qd t q).fp = (if (qd s q).scope = scTxn then (qd s q).fp else (qd s q).plus (qd s q).rp k) ∧ QdtMarks s t ∧
        t = { updSlip s p (fun _ => slipSt t p) with tim := t.tim, qm := t.qm, ecc := t.ecc }) ∧
    (∀ p (fr : SlipFrame) rest s, (slipSt s p).resend = 0 → (slipSt s p).vc0 = fr :: rest → frameCost fr ≤ (slipSt s p).avail 0 →
      replayRoom (slipSt s p) fr = false → ∃ t, exec (.egressFrameSend p) s = .next t ∧ t = { s with tim := t.tim })

/-! ### Sensor front end (chapter 08) -/

/-- The setting asks for a signal that pin k does not have, or that another pin carries. -/
abbrev PinClash (s : State) (k mux : Nat) : Prop :=
  (2 ≤ mux ∧ pinSig k mux = none) ∨ ((pinSig k mux).isSome = true ∧ ∃ j < 24, j ≠ k ∧ pinSig j (pinMux s j) = pinSig k mux)

/-- Enabling a channel with a legal configuration (08 R336): `EN` reads 1, the counts since the enable start at 0, the pipeline is
cleared, the limits take effect. With an illegal one only `CFGERR` is set.
Disabling a channel makes its verdict STALE at once, with its value kept, marks the change, and clears the pipeline (08 R338, R348).
A write of `SP_CFG` of a pin that no enabled channel uses takes effect, but for the `MUX` of a clash, which sets MUXERR and leaves the
old `MUX` (08 R326); of a pin in use it is turned away whole (R327). -/
def Obligations.ChannelsAndPinsAreSetUp : Prop :=
  (∀ (n : Fin 16) (v : Word) s, s.wf → WinReaches (0x40030100 + n.val * 0x10000) s → chEn (chanSt s n.val) = false → bit v 31 = true →
    chConfigOk (updChan s n.val (fun c => { c with ctrl := writeReg chCtrlFields c.ctrl v }))
      { chanSt s n.val with ctrl := writeReg chCtrlFields (chanSt s n.val).ctrl v } = true →
    ∃ t, exec (.channelEnable n v) s = .next t ∧ (chanSt t n.val).ctrl = setBit (writeReg chCtrlFields (chanSt s n.val).ctrl v) 31 true ∧
      (chanSt t n.val).faults = 0 ∧ (chanSt t n.val).misses = 0 ∧ (chanSt t n.val).prev = none ∧
      (chanSt t n.val).rangeNow = (chanSt s n.val).range ∧ (chanSt t n.val).rateNow = (chanSt s n.val).rate ∧
      (chanSt t n.val).verdict = (chanSt s n.val).verdict ∧ t = updChan s n.val (fun _ => chanSt t n.val)) ∧
    (∀ (n : Fin 16) (v : Word) s, s.wf → WinReaches (0x40030100 + n.val * 0x10000) s → chEn (chanSt s n.val) = false → bit v 31 = true →
      chConfigOk (updChan s n.val (fun c => { c with ctrl := writeReg chCtrlFields c.ctrl v }))
        { chanSt s n.val with ctrl := writeReg chCtrlFields (chanSt s n.val).ctrl v } = false →
      exec (.channelEnable n v) s =
        .next (updChan s n.val (fun c => { c with ctrl := setBit (writeReg chCtrlFields c.ctrl v) 30 true }))) ∧
    (∀ (n : Fin 16) (v : Word) s, s.wf → WinReaches (0x40030100 + n.val * 0x10000) s → chEn (chanSt s n.val) = true → bit v 31 = false →
    ∃ t, exec (.channelDisable n v) s = .next t ∧ chEn (chanSt t n.val) = false ∧ (chanSt t n.val).verdict = vStale ∧
      (chanSt t n.val).value = (chanSt s n.val).value ∧ (chanSt t n.val).slot = .idle ∧ (chanSt t n.val).prev = none ∧
      (chanSt t n.val).stamp = now s ∧ (chanSt t n.val).sseq = ((chanSt s n.val).sseq + 1) % 256 ∧
      ((chanSt s n.val).verdict ≠ vStale → bit t.sns.chg n.val = true ∧ bit t.sns.chg (16 + n.val) = true) ∧
      (∀ m < 16, chSrc (chanSt s m) ≠ chSrc (chanSt s n.val) → chanSt t m = chanSt s m) ∧
      t.sns.toHp = s.sns.toHp ++ [(n.val, vStale, (chanSt s n.val).value)] ∧
      t = { s with sns := t.sns, tim := t.tim, freeK := t.freeK }) ∧
    (∀ (k : Fin 24) (v : Word) s, s.wf → WinReaches (0x40130140 + 4 * k.val) s → pinInUse s k.val = false → bits v 2 0 ≤ 3 → bits v 5 4 ≤ 2 →
    ¬ PinClash s k.val (bits v 2 0) →
    exec (.spCfgWrite k v) s = .next { s with sns := { s.sns with
      spcfg := upd s.sns.spcfg k.val (fun _ => mkWord [(4, 2, bits v 5 4), (0, 3, bits v 2 0)]) } }) ∧
    (∀ (k : Fin 24) (v : Word) s, s.wf → WinReaches (0x40130140 + 4 * k.val) s → pinInUse s k.val = false → bits v 2 0 ≤ 3 →
      PinClash s k.val (bits v 2 0) →
      ∃ t, exec (.spCfgWrite k v) s = .next t ∧ t.sns.muxerr = true ∧ pinMux t k.val = pinMux s k.val ∧
        (∀ j < 24, j ≠ k.val → nth t.sns.spcfg j 0 = nth s.sns.spcfg j 0) ∧
        t.sns = { s.sns with muxerr := true, spcfg := t.sns.spcfg } ∧ t = { s with sns := t.sns }) ∧
    (∀ (k : Fin 24) (v : Word) s, WinReaches (0x40130140 + 4 * k.val) s → pinInUse s k.val = true → exec (.spCfgWrite k v) s = .next s)

/-- A slot of an enabled channel whose source is free starts its transfer with the limits written last, taking a counter's value or closing
a PDM window there (08 R330, R332, R337, R342); one whose source another transfer holds waits (R332). A slot that ends waiting is a miss, one that ends during its transfer a fault, either STALE once the run of such slots reaches STALEK (R333, R334,
R345, R346).
A completed sample goes through the pipeline (08 R344 to R349): its verdict is VALID, or CLIPPED when a stage limited it, its value
the pipeline's output, its stamp the sampling instant's; a FAULT sample counts and keeps the value. -/
def Obligations.SlotsEndInAVerdict : Prop :=
  (∀ (n : Fin 16) u s, s.wf → pdOn s 2 = true → (islSt s (3 + n.val)).held = false → chEn (chanSt s n.val) = true →
    0 < chPer (chanSt s n.val) → u % chPer (chanSt s n.val) = chPhase (chanSt s n.val) → (chanSt s n.val).slot = .idle →
    (chSrc (chanSt s n.val) ≤ 5 → sourceHeld s (chSrc (chanSt s n.val)) = false) →
    ∃ t, exec (.channelSlot n u) s = .next t ∧
      chanSt t n.val = (let c := chanSt s n.val
        let cnt := decide (6 ≤ chSrc c ∧ chSrc c < 10)
        let pdm := decide (chSrc c = 10 ∨ chSrc c = 11)
        { c with slot := .transfer, slotU := u, slotStamp := now (instant (askFio s)), rangeNow := c.range, rateNow := c.rate,
                 sent := recovery s.sns.xfer (chSrc c) ++ chanOps c,
                 base := if cnt then (nth s.sns.cnts (chSrc c - 6) ⟨0, false, false, false⟩).count else c.base,
                 slotRaw := if cnt || pdm then (if chLive s c then (if cnt then rawCounter s c else rawPdm c) else none)
                            else c.slotRaw,
                 pdmSum := if pdm then 0 else c.pdmSum, pdmNum := if pdm then 0 else c.pdmNum, pdmChg := c.pdmChg && !pdm }) ∧
      (∀ m < 16, m ≠ n.val → chanSt t m = chanSt s m) ∧ t = { s with sns := t.sns, tim := t.tim, clk := t.clk }) ∧
    (∀ (n : Fin 16) u s m, s.wf → pdOn s 2 = true → (islSt s (3 + n.val)).held = false → chEn (chanSt s n.val) = true →
      0 < chPer (chanSt s n.val) → u % chPer (chanSt s n.val) = chPhase (chanSt s n.val) → (chanSt s n.val).slot = .idle →
      chSrc (chanSt s n.val) ≤ 5 → sourceHolder s (chSrc (chanSt s n.val)) = some m →
      (m < n.val ∨ (chanSt s m).slotU ≠ u) →
      ∃ t, exec (.channelSlot n u) s = .next t ∧
        chanSt t n.val = { chanSt s n.val with slot := .waiting, slotU := u, rangeNow := (chanSt s n.val).range,
                                               rateNow := (chanSt s n.val).rate } ∧
        (∀ k < 16, k ≠ n.val → chanSt t k = chanSt s k) ∧ t = { s with sns := t.sns, tim := t.tim, clk := t.clk }) ∧
    (∀ (n : Fin 16) s, s.wf → (chanSt s n.val).slot = .waiting →
      ∃ t, exec (.slotMiss n) s = .next t ∧ (chanSt t n.val).slot = .idle ∧
        (chanSt t n.val).misses = satInc 0xFFFF (chanSt s n.val).misses ∧ (chanSt t n.val).missRun = (chanSt s n.val).missRun + 1 ∧
        (chanSt t n.val).verdict =
          (if chStalek (chanSt s n.val) ≤ (chanSt s n.val).missRun + 1 then vStale else (chanSt s n.val).verdict) ∧
        (chanSt t n.val).value = (chanSt s n.val).value ∧ t = { s with sns := t.sns, tim := t.tim }) ∧
    (∀ (n : Fin 16) low s, s.wf → (chanSt s n.val).slot = .transfer →
      ∃ t, exec (.transferAbandon n low) s = .next t ∧ (chanSt t n.val).slot = .idle ∧
        (chanSt t n.val).faults = satInc 0xFFFF (chanSt s n.val).faults ∧ (chanSt t n.val).missRun = (chanSt s n.val).missRun + 1 ∧
        (chanSt t n.val).verdict = (if chStalek (chanSt s n.val) ≤ (chanSt s n.val).missRun + 1 then vStale else vFault) ∧
        (chanSt t n.val).value = (chanSt s n.val).value ∧ (chanSt t n.val).stamp = (chanSt s n.val).slotStamp ∧
        t = { s with sns := t.sns, tim := t.tim }) ∧
    (∀ (n : Fin 16) (r : SampleIn) s x, s.wf → Instr.wf (.sampleDone n r) = true → (chanSt s n.val).slot = .transfer →
    rawOf s n.val r = some (some x) → (chClipf (chanSt s n.val) = 0 ∨ (pipeline (chanSt s n.val) x.toInt).2.2 = false) →
    ∃ t, exec (.sampleDone n r) s = .next t ∧ (chanSt t n.val).slot = .idle ∧
      (chanSt t n.val).verdict = (if (pipeline (chanSt s n.val) x.toInt).2.2 then vClipped else vValid) ∧
      (chanSt t n.val).value = BitVec.ofInt 16 (pipeline (chanSt s n.val) x.toInt).2.1 ∧
      (chanSt t n.val).stamp = (chanSt s n.val).slotStamp ∧ (chanSt t n.val).missRun = 0 ∧
      (chanSt t n.val).sseq = ((chanSt s n.val).sseq + 1) % 256 ∧
      t.sns.toHp = s.sns.toHp ++ [(n.val, (chanSt t n.val).verdict, (chanSt t n.val).value)] ∧
      t = { s with sns := t.sns, tim := t.tim }) ∧
    (∀ (n : Fin 16) (r : SampleIn) s, s.wf → Instr.wf (.sampleDone n r) = true → (chanSt s n.val).slot = .transfer →
      rawOf s n.val r = some none →
      ∃ t, exec (.sampleDone n r) s = .next t ∧ (chanSt t n.val).slot = .idle ∧
        (chanSt t n.val).faults = satInc 0xFFFF (chanSt s n.val).faults ∧ (chanSt t n.val).missRun = (chanSt s n.val).missRun + 1 ∧
        (chanSt t n.val).verdict = (if chStalek (chanSt s n.val) ≤ (chanSt s n.val).missRun + 1 then vStale else vFault) ∧
        (chanSt t n.val).value = (chanSt s n.val).value ∧ t = { s with sns := t.sns, tim := t.tim })

/-- Inputs between slots: an edge on inputs that the front end sees moves its counter (08 R324, R329, R718); a PCM sample enters the window
of each channel on its input (R342) and, when the SCE gathers it, its two bytes go into the PCM ring, no other byte changing (10 R392,
R412); VIO_SB1's level is classified while PD2 is on (R328).
Manual transfers of the front end and of the I/O tile (08 R351 to R353, 17 R682): `START` on a free controller sets BUSY and lays down
what goes on the bus, the pending recovery first (R343); on a controller that an enabled channel uses it only sets status 3; the end
clears BUSY with status 0 and the bytes read in place of as many bytes written, a NACK with status 1, 10 ms with status 2. A transfer over
pins that the front end does not see ends with status 1 (R329; which status shows that FAULT is the model's choice, log 98). -/
def Obligations.InputsAndTransfersAreKept : Prop :=
  (∀ (c : Fin 4) a b s, s.wf → pdOn s 2 = true → counterLatched s c.val = false → sigLive s (.cntA c.val) = true →
    (pulseMode s c.val = true ∨ sigLive s (.cntB c.val) = true) →
    ∃ t, exec (.counterEdge c a b) s = .next t ∧
      t.sns = { s.sns with cnts := upd s.sns.cnts c.val (fun x => x.edge (pulseMode s c.val) a b) } ∧
      t = { s with sns := t.sns, clk := t.clk, tim := t.tim }) ∧
    (∀ (c : Fin 4) a b s, counterLatched s c.val = true → exec (.counterEdge c a b) s = .next s) ∧
    (∀ (p : Fin 2) (v : BitVec 16) ch s, pdmLive s p.val = true → s.sce.aud ≠ p.val + 1 →
      exec (.pcmSample p v ch) s = .next { s with sns := { s.sns with chans := s.sns.chans.map (fun c =>
        if chEn c && chSrc c == 10 + p.val then
          { c with pdmSum := c.pdmSum + v.toInt.natAbs, pdmNum := c.pdmNum + 1, pdmChg := c.pdmChg || ch } else c) } }) ∧
    (∀ (p : Fin 2) (v : BitVec 16) ch s, s.memOk → pdmLive s p.val = true → s.sce.aud = p.val + 1 → pdOn s 4 = true →
      s.sce.pcmPos < 1024 →
      ∃ t, exec (.pcmSample p v ch) s = .next t ∧ t.sce = { s.sce with pcmPos := (s.sce.pcmPos + 1) % 1024 } ∧
        t.sns = { s.sns with chans := s.sns.chans.map (fun c =>
          if chEn c && chSrc c == 10 + p.val then
            { c with pdmSum := c.pdmSum + v.toInt.natAbs, pdmNum := c.pdmNum + 1, pdmChg := c.pdmChg || ch } else c) } ∧
        readBytes t (scePcm + 2 * s.sce.pcmPos) 2 = [v.setWidth 8, (v >>> 8).setWidth 8] ∧
        (∀ a, a < scePcm + 2 * s.sce.pcmPos ∨ scePcm + 2 * s.sce.pcmPos + 2 ≤ a → readByte t a = readByte s a) ∧
        t = { s with sns := t.sns, sce := t.sce, mem := t.mem, ecc := t.ecc }) ∧
    (∀ uv s, pdPowered s 2 = true →
      exec (.sb1ClassChange uv) s = .next { s with sns := { s.sns with
        sb1uv := uv, sb1det := if 1710000 ≤ uv ∧ uv ≤ 1890000 then 1 else if 3000000 ≤ uv ∧ uv ≤ 3600000 then 2 else 0 } }) ∧
    (∀ uv s, pdPowered s 2 = false → exec (.sb1ClassChange uv) s = .next { s with sns := { s.sns with sb1uv := uv } }) ∧
    (∀ (v : Word) s, WinReaches 0x401301C0 s → bit v 31 = true → bit s.sns.xfer.ctrl 31 = false → bits v 27 24 ≤ 4 →
    busUsed s (bits v 27 24) = false → bits v 7 4 ≤ 8 → bits v 3 0 ≤ 8 →
    ∃ t, exec (.manualTransfer false v) s = .next t ∧ bit t.sns.xfer.ctrl 31 = true ∧ bits t.sns.xfer.ctrl 27 24 = bits v 27 24 ∧
      bits t.sns.xfer.ctrl 23 16 = bits v 23 16 ∧ bits t.sns.xfer.ctrl 7 4 = bits v 7 4 ∧ bits t.sns.xfer.ctrl 3 0 = bits v 3 0 ∧
      t.sns.xfer.sent = recovery s.sns.xfer (bits v 27 24) ++ manualOps t.sns.xfer.ctrl s.sns.xfer.data0 s.sns.xfer.data1 ∧
      t.sns = { s.sns with xfer := { s.sns.xfer with ctrl := t.sns.xfer.ctrl, sent := t.sns.xfer.sent } } ∧
      t = { s with sns := t.sns }) ∧
    (∀ (v : Word) s, WinReaches 0x401301C0 s → bit v 31 = true → bit s.sns.xfer.ctrl 31 = false → bits v 27 24 ≤ 4 →
    busUsed s (bits v 27 24) = true →
    ∃ t, exec (.manualTransfer false v) s = .next t ∧ bit t.sns.xfer.ctrl 31 = false ∧ bits t.sns.xfer.ctrl 30 28 = 3 ∧
      t.sns = { s.sns with xfer := { s.sns.xfer with ctrl := t.sns.xfer.ctrl } } ∧ t = { s with sns := t.sns }) ∧
    (∀ (v : Word) s, WinReaches 0x403E0500 s → bit v 31 = true → bit s.iotXfer.ctrl 31 = false → bits v 27 24 ≤ 1 → bits v 7 4 ≤ 8 →
      bits v 3 0 ≤ 8 →
      ∃ t, exec (.manualTransfer true v) s = .next t ∧ bit t.iotXfer.ctrl 31 = true ∧ bits t.iotXfer.ctrl 27 24 = bits v 27 24 ∧
        bits t.iotXfer.ctrl 3 0 = bits v 3 0 ∧
        t.iotXfer.sent = recovery s.iotXfer (bits v 27 24) ++ manualOps t.iotXfer.ctrl s.iotXfer.data0 s.iotXfer.data1 ∧
        t.iotXfer = { s.iotXfer with ctrl := t.iotXfer.ctrl, sent := t.iotXfer.sent } ∧ t = { s with iotXfer := t.iotXfer }) ∧
    (∀ iot (bs : List Byte) low s x, x = (if iot then s.iotXfer else s.sns.xfer) → bit x.ctrl 31 = true → bs.length = bits x.ctrl 3 0 →
      bs.length ≤ 8 → manualLive s iot = true → (iot = true → (tileSt s .io).link = .up) →
      ∃ t y, exec (.manualTransferDone iot (.ok bs) low) s = .next t ∧ y = (if iot then t.iotXfer else t.sns.xfer) ∧
        bit y.ctrl 31 = false ∧ bits y.ctrl 30 28 = 0 ∧
        leBytes 4 y.data0.toNat ++ leBytes 4 y.data1.toNat = bs ++ (leBytes 4 x.data0.toNat ++ leBytes 4 x.data1.toNat).drop bs.length ∧
        y.sda = upd x.sda (bits x.ctrl 27 24) (fun k => sdaAfter k low) ∧
        t = (if iot then { s with iotXfer := y } else { s with sns := { s.sns with xfer := y } })) ∧
    (∀ iot e low s x, x = (if iot then s.iotXfer else s.sns.xfer) → bit x.ctrl 31 = true →
      Instr.wf (.manualTransferDone iot e low) = true → (e = .nack ∨ manualLive s iot = false) →
      (iot = true → (tileSt s .io).link = .up) →
      ∃ t, exec (.manualTransferDone iot e low) s = .next t ∧
        (if iot then t.iotXfer else t.sns.xfer) =
          { x with ctrl := setBits (setBit x.ctrl 31 false) 30 28 1, sda := upd x.sda (bits x.ctrl 27 24) (fun k => sdaAfter k low) } ∧
        t = (if iot then { s with iotXfer := t.iotXfer } else { s with sns := { s.sns with xfer := t.sns.xfer } })) ∧
    (∀ iot low s x, x = (if iot then s.iotXfer else s.sns.xfer) → bit x.ctrl 31 = true →
      ∃ t, exec (.manualTransferTimeout iot low) s = .next t ∧
        (if iot then t.iotXfer else t.sns.xfer) =
          { x with ctrl := setBits (setBit x.ctrl 31 false) 30 28 2, sda := upd x.sda (bits x.ctrl 27 24) (fun k => sdaAfter k low) } ∧
        t = (if iot then { s with iotXfer := t.iotXfer } else { s with sns := { s.sns with xfer := t.sns.xfer } }))

/-! ### Hardpan (chapter 09) -/

/-- An input on its way reaches the rules that name its source, and the groups are scanned (09 R358 to R362): what each rule's counter and
standing become, for a channel's update, an SCE result, the silence of the SCE. -/
def Obligations.InputsReachTheirRules : Prop :=
  (∀ (n : Fin 16) (v : BitVec 2) (x : BitVec 16) rest s, s.sns.toHp = (n.val, v, x) :: rest → i2Runs s = true → s.wf →
    ∃ t, exec (.hpInputVerdict n) s = .next t ∧ t.sns.toHp = rest ∧
      (∀ m < 32, (nth t.hp.c m 0, nth t.hp.standing m false) =
        if ruleIsSce s.hp m = false ∧ ruleSrc s.hp m = n.val then
          debounce s.hp m (if v = 0b11 then .fault else if v = 0b10 then .stale else .value x.toInt)
        else (nth s.hp.c m 0, nth s.hp.standing m false)) ∧
      (∀ g < 32, nth t.hp.grp g false = groupTripped t.hp g) ∧
      t.hp = { s.hp with c := t.hp.c, standing := t.hp.standing, grp := t.hp.grp, released := t.hp.released, warn := t.hp.warn,
                         first := t.hp.first, ackd := t.hp.ackd } ∧
      t = { s with sns := { s.sns with toHp := rest }, hp := t.hp, pwr := t.pwr, cp := t.cp, tim := t.tim, slip0 := t.slip0,
                   slip1 := t.slip1 }) ∧
    (∀ s, s.hp.sceIn = true → i2Runs s = true → s.wf →
      ∃ t, exec .hpInputSce s = .next t ∧
        (∀ m < 32, (nth t.hp.c m 0, nth t.hp.standing m false) =
          if ruleIsSce s.hp m = true then debounce s.hp m (.value (nth s.hp.conf (ruleSrc s.hp m) 0 : Nat))
          else (nth s.hp.c m 0, nth s.hp.standing m false)) ∧
        (∀ g < 32, nth t.hp.grp g false = groupTripped t.hp g) ∧
        t.hp = { s.hp with sceIn := false, silent := false, c := t.hp.c, standing := t.hp.standing, grp := t.hp.grp,
                           released := t.hp.released, warn := t.hp.warn, first := t.hp.first, ackd := t.hp.ackd } ∧
        t = { s with hp := t.hp, pwr := t.pwr, cp := t.cp, tim := t.tim, slip0 := t.slip0, slip1 := t.slip1 }) ∧
    (∀ s, s.hp.silent = false → i2Runs s = true → s.wf →
      ∃ t, exec .sceSilenceTimeout s = .next t ∧
        (∀ m < 32, (nth t.hp.c m 0, nth t.hp.standing m false) =
          if ruleIsSce s.hp m = true then debounce s.hp m .silence else (nth s.hp.c m 0, nth s.hp.standing m false)) ∧
        (∀ g < 32, nth t.hp.grp g false = groupTripped t.hp g) ∧
        t.hp = { s.hp with silent := true, c := t.hp.c, standing := t.hp.standing, grp := t.hp.grp,
                           released := t.hp.released, warn := t.hp.warn, first := t.hp.first, ackd := t.hp.ackd } ∧
        t = { s with hp := t.hp, pwr := t.pwr, cp := t.cp, tim := t.tim, slip0 := t.slip0, slip1 := t.slip1 })

/-- A trip of a HALT group drives both outputs to halt at once and takes `RELEASED` away: whatever made them run before, no state in which
a HALT group is tripped drives the run level (09 R355, R362). -/
def Obligations.TripHaltsTheOutputs : Prop :=
  ∀ (n : Fin 16) s t, s.wf → exec (.hpInputVerdict n) s = .next t → i2Runs s = true → haltTripped t.hp = true →
    (s.sns.toHp.any (fun u => u.1 == n.val)) = true →
    haltA t = false ∧ haltB t = true ∧ ((haltTripped s.hp = false ∧ ∀ g < 32, nth s.hp.grp g false = groupTripped s.hp g) →
      t.hp.released = false)

/-- The key sequences (09 R364 to R366). Outside RETIRED the first arming key opens a sequence, the second starts the self-test that
decides, or is refused with the cause that bars arming; 100 ms, or another write, abandon a sequence. The release key releases an armed
Hardpan that nothing blocks, the disarm key disarms outside SEALED, and in stable HIBERNATE its domain goes off (04 R122). A key refused
or out of place sets KERR with its cause and changes nothing else. In RETIRED the release key alone is served; the rest is the model's
reading of 16 R649 (DEDUCED, log 65). -/
def Obligations.KeysArmAndRelease : Prop :=
  (∀ f s, Reaches f 0x51 0x5A17 s → life s ≠ .retired → s.hp.armSeq = false →
    ∃ t, exec (.armFirstKey f) s = .next t ∧ t.hp = { s.hp with armSeq := true } ∧ t.cp = linkedTo s.cp 0x51 0 f.seq ∧
      t = { s with hp := t.hp, cp := t.cp, clk := t.clk, tim := t.tim }) ∧
    (∀ f s, Reaches f 0x51 0x5A17 s → life s ≠ .retired → s.hp.armSeq = true →
      ∃ t, exec (.armFirstKey f) s = .next t ∧ t.hp = { s.hp with armSeq := false, kerr := true, kcause := kSequence } ∧
        t.cp = linkedTo s.cp 0x51 0 f.seq ∧ t = { s with hp := t.hp, cp := t.cp, clk := t.clk, tim := t.tim }) ∧
    (∀ f s, Reaches f 0x51 0xA5E8 s → life s ≠ .retired → s.hp.armSeq = true → armCause s = none →
      ∃ t, exec (.armSecondKey f) s = .next t ∧ t.hp = { s.hp with armSeq := false, arming := true, stRun := true } ∧
        t.cp = linkedTo s.cp 0x51 0 f.seq ∧ t = { s with hp := t.hp, cp := t.cp, clk := t.clk, tim := t.tim }) ∧
    (∀ f s k, Reaches f 0x51 0xA5E8 s → life s ≠ .retired → s.hp.armSeq = true → armCause s = some k →
      ∃ t, exec (.armSecondKey f) s = .next t ∧ t.hp = { s.hp with armSeq := false, kerr := true, kcause := k } ∧
        t.cp = linkedTo s.cp 0x51 0 f.seq ∧ t = { s with hp := t.hp, cp := t.cp, clk := t.clk, tim := t.tim }) ∧
    (∀ f s, Reaches f 0x51 0xA5E8 s → life s ≠ .retired → s.hp.armSeq = false →
      ∃ t, exec (.armSecondKey f) s = .next t ∧ t.hp = { s.hp with kerr := true, kcause := kSequence } ∧
        t.cp = linkedTo s.cp 0x51 0 f.seq ∧ t = { s with hp := t.hp, cp := t.cp, clk := t.clk, tim := t.tim }) ∧
    (∀ s, s.hp.armSeq = true →
      exec .armSequenceTimeout s = .next { s with hp := { s.hp with armSeq := false, kerr := true, kcause := kSequence } }) ∧
    (∀ f s, Reaches f 0x51 0x3C96 s → s.hp.armSeq = false → releaseCause s = none →
      ∃ t, exec (.releaseKey f) s = .next t ∧ t.hp = { s.hp with released := true, kcause := kOk } ∧ t.cp = linkedTo s.cp 0x51 0 f.seq ∧
        t = { s with hp := t.hp, cp := t.cp, clk := t.clk, tim := t.tim }) ∧
    (∀ f s k, Reaches f 0x51 0x3C96 s → s.hp.armSeq = false → releaseCause s = some k →
      ∃ t, exec (.releaseKey f) s = .next t ∧ t.hp = { s.hp with kerr := true, kcause := k } ∧ t.cp = linkedTo s.cp 0x51 0 f.seq ∧
        t = { s with hp := t.hp, cp := t.cp, clk := t.clk, tim := t.tim }) ∧
    (∀ f s, Reaches f 0x51 0xD15A s → life s ≠ .retired → life s ≠ .sealed → s.hp.armSeq = false → armedBit s = true →
      ¬(s.pwr.st = .hibernate ∧ s.pwr.seq = .stable) →
      ∃ t, exec (.disarmKey f) s = .next t ∧ t.hp = { s.hp with armed := false, released := false, kcause := kOk } ∧
        t.cp = linkedTo s.cp 0x51 0 f.seq ∧ t = { s with hp := t.hp, cp := t.cp, clk := t.clk, tim := t.tim }) ∧
    (∀ f s, Reaches f 0x51 0xD15A s → life s ≠ .retired → life s ≠ .sealed → s.hp.armSeq = false → armedBit s = true →
      s.pwr.st = .hibernate → s.pwr.seq = .stable → s.wf →
      ∃ t, exec (.disarmKey f) s = .next t ∧ t.hp.armed = false ∧ t.hp.released = false ∧ t.hp.kcause = kOk ∧ pdLevel t 1 = .off ∧
        (∀ n, n ≠ 1 → pdLevel t n = pdLevel s n) ∧ t.pwr = { s.pwr with pd := t.pwr.pd } ∧ t.cp = linkedTo s.cp 0x51 0 f.seq ∧
        t = { s with hp := t.hp, pwr := t.pwr, cp := t.cp, clk := t.clk, tim := t.tim }) ∧
    (∀ f s, Reaches f 0x51 0xD15A s → life s = .sealed → s.hp.armSeq = false → armedBit s = true →
      ∃ t, exec (.disarmKey f) s = .next t ∧ t.hp = { s.hp with kerr := true, kcause := kSealed } ∧
        t.cp = linkedTo s.cp 0x51 0 f.seq ∧ t = { s with hp := t.hp, cp := t.cp, clk := t.clk, tim := t.tim }) ∧
    (∀ f s, Reaches f 0x51 0xD15A s → life s ≠ .retired → s.hp.armSeq = false → armedBit s = false →
      ∃ t, exec (.disarmKey f) s = .next t ∧ t.hp = { s.hp with kerr := true, kcause := kNotArmed } ∧
        t.cp = linkedTo s.cp 0x51 0 f.seq ∧ t = { s with hp := t.hp, cp := t.cp, clk := t.clk, tim := t.tim }) ∧
    (∀ f (key : BitVec 16) s, Reaches f 0x51 (key.setWidth 32) s → life s ≠ .retired → key ≠ 0x5A17 → key ≠ 0xA5E8 → key ≠ 0x3C96 → key ≠ 0xD15A →
      ∃ t, exec (.invalidKey f key) s = .next t ∧ t.hp = { s.hp with armSeq := false, kerr := true, kcause := kSequence } ∧
        t.cp = linkedTo s.cp 0x51 0 f.seq ∧ t = { s with hp := t.hp, cp := t.cp, clk := t.clk, tim := t.tim }) ∧
    (∀ c f v s, (c = .armFirstKey f ∧ v = 0x5A17 ∨ c = .armSecondKey f ∧ v = 0xA5E8 ∨ c = .disarmKey f ∧ v = 0xD15A) →
      Reaches f 0x51 v s → life s = .retired → s.hp.armSeq = false →
      ∃ t, exec c s = .next t ∧ t.hp = { s.hp with kerr := true, kcause := kBlocked } ∧ t.cp = linkedTo s.cp 0x51 5 f.seq ∧
        t = { s with hp := t.hp, cp := t.cp, clk := t.clk, tim := t.tim })

/-- A write of `HP_CTRL` (09 R367, R370, R375): HOLD is taken in any state and takes `RELEASED` away, RUNST starts a self-test; TST and
SCE_TO are taken only while Hardpan is not armed and not in RETIRED; a locked change sets LOCKERR and is answered ADDR_ERR, in SEALED
and RETIRED DENIED.
A write of `HP_STATUS` clears what it names and acknowledges a trip (09 R362). A rule word is written with its shadow, only while
Hardpan is not armed and not in RETIRED (R358, R367, R369, R719); its rule's counter starts afresh, with the domain running the groups
are scanned (R360, R362), and `IDX` advances. A read of `HP_RULE_DATA` returns the selected word, and advances `IDX` while PD1 is powered
(R380; that a read advances it is the model's reading, log 65). -/
def Obligations.RulesAndControlAreLocked : Prop :=
  (∀ c f (v : Word) s, (c = .hpHold f v ∨ c = .hpRunst f v ∨ c = .hpCtrlConfig f v) → Reaches f 0x52 v s → life s ≠ .retired →
    s.hp.armed = false → s.hp.armSeq = false →
    ∃ t, exec c s = .next t ∧
      t.hp = { s.hp with hold := bit v 0, released := s.hp.released && !bit v 0, runst := s.hp.runst || bit v 1,
                         stRun := s.hp.stRun || bit v 1,
                         tst := if 1 ≤ bits v 15 8 ∧ bits v 15 8 ≤ 100 then bits v 15 8 else s.hp.tst,
                         sceTo := if 1 ≤ bits v 23 16 then bits v 23 16 else s.hp.sceTo } ∧
      t.cp = linkedTo s.cp 0x52 0 f.seq ∧ t = { s with hp := t.hp, cp := t.cp, clk := t.clk, tim := t.tim }) ∧
    (∀ c f (v : Word) s, (c = .hpHold f v ∨ c = .hpRunst f v ∨ c = .hpCtrlConfig f v) → Reaches f 0x52 v s → s.hp.armed = true →
      s.hp.armSeq = false → bits v 15 8 = s.hp.tst → bits v 23 16 = s.hp.sceTo →
      ∃ t, exec c s = .next t ∧
        t.hp = { s.hp with hold := bit v 0, released := s.hp.released && !bit v 0, runst := s.hp.runst || bit v 1,
                           stRun := s.hp.stRun || bit v 1 } ∧
        t.cp = linkedTo s.cp 0x52 0 f.seq ∧ t = { s with hp := t.hp, cp := t.cp, clk := t.clk, tim := t.tim }) ∧
    (∀ c f (v : Word) s, (c = .hpHold f v ∨ c = .hpRunst f v ∨ c = .hpCtrlConfig f v) → Reaches f 0x52 v s →
      (s.hp.armed = true ∨ life s = .retired) → s.hp.armSeq = false →
      (1 ≤ bits v 15 8 ∧ bits v 15 8 ≤ 100 ∧ bits v 15 8 ≠ s.hp.tst ∨ 1 ≤ bits v 23 16 ∧ bits v 23 16 ≠ s.hp.sceTo) →
      ∃ t, exec c s = .next t ∧
        t.hp = { s.hp with hold := bit v 0, released := s.hp.released && !bit v 0, runst := s.hp.runst || bit v 1,
                           stRun := s.hp.stRun || bit v 1, lockerr := s.hp.lockerr || s.hp.armed } ∧
        t.cp = linkedTo s.cp 0x52 (if life s = .sealed ∨ life s = .retired then 5 else 1) f.seq ∧
        t = { s with hp := t.hp, cp := t.cp, clk := t.clk, tim := t.tim }) ∧
    (∀ f (v : Word) s, Reaches f 0x50 v s → s.hp.armSeq = false →
    ∃ t, exec (.hpTripack f v) s = .next t ∧
      t.hp = { s.hp with kerr := s.hp.kerr && !bit v 15, lockerr := s.hp.lockerr && !bit v 14, warn := s.hp.warn && !bit v 13,
                         ackd := s.hp.ackd || bit v 7 } ∧
      t.cp = linkedTo s.cp 0x50 0 f.seq ∧ t = { s with hp := t.hp, cp := t.cp, clk := t.clk, tim := t.tim }) ∧
    (∀ f (v : Word) s, Reaches f 0x54 v s → life s ≠ .retired → s.hp.armed = false → s.hp.armSeq = false → s.wf → s.hp.idx < 64 →
      ∃ t, exec (.hpRuleWrite f v) s = .next t ∧ t.hp.rules = upd s.hp.rules s.hp.idx (fun _ => v) ∧
        t.hp.shadow = upd s.hp.shadow s.hp.idx (fun _ => ~~~v) ∧ t.hp.idx = (if s.hp.inc then (s.hp.idx + 1) % 64 else s.hp.idx) ∧
        (nth t.hp.c (s.hp.idx / 2) 0 = 0 ∧ nth t.hp.standing (s.hp.idx / 2) false = false ∨
          nth t.hp.c (s.hp.idx / 2) 0 = ruleDb t.hp (s.hp.idx / 2) + 1 ∧ nth t.hp.standing (s.hp.idx / 2) false = true) ∧
        (∀ m < 32, m ≠ s.hp.idx / 2 →
          nth t.hp.c m 0 = nth s.hp.c m 0 ∧ nth t.hp.standing m false = nth s.hp.standing m false) ∧
        (i2Runs s = true → ∀ g < 32, nth t.hp.grp g false = groupTripped t.hp g) ∧
        t.hp = { s.hp with rules := t.hp.rules, shadow := t.hp.shadow, idx := t.hp.idx, c := t.hp.c, standing := t.hp.standing,
                           grp := t.hp.grp, released := t.hp.released, warn := t.hp.warn, first := t.hp.first, ackd := t.hp.ackd } ∧
        t.cp.wIdx = 0x54 ∧ t.cp.wRes = 0 ∧ t.cp.wSeq = f.seq ∧
        t = { s with hp := t.hp, cp := t.cp, clk := t.clk, tim := t.tim, pwr := t.pwr, slip0 := t.slip0, slip1 := t.slip1 }) ∧
    (∀ f (v : Word) s, Reaches f 0x54 v s → life s = .retired → s.hp.armSeq = false →
      ∃ t, exec (.hpRuleWrite f v) s = .next t ∧ t.cp = linkedTo s.cp 0x54 5 f.seq ∧
        t = { s with cp := t.cp, clk := t.clk, tim := t.tim }) ∧
    (∀ f (v : Word) s, Reaches f 0x54 v s → life s ≠ .retired → s.hp.armed = true → s.hp.armSeq = false →
      ∃ t, exec (.hpRuleWrite f v) s = .next t ∧ t.hp = { s.hp with lockerr := true } ∧
        t.cp = linkedTo s.cp 0x54 (if life s = .sealed then 5 else 1) f.seq ∧
        t = { s with hp := t.hp, cp := t.cp, clk := t.clk, tim := t.tim }) ∧
    (∀ (r : Rd) s, cpServes s = true → addressed s r.addr = true → (r.early = false ∨ s.boot.strapCp = true) → r.pre = [] →
      ∃ t, exec (.hpRuleRead r) s = .next t ∧ t.cp.disc = false ∧
        t.cp.resp.map (fun x => (bits x.status 7 5, x.data)) = some (0, nth s.hp.rules s.hp.idx 0) ∧
        t.hp = { s.hp with idx := if s.hp.inc && pdPowered s 1 then (s.hp.idx + 1) % 64 else s.hp.idx } ∧
        t = { s with hp := t.hp, cp := t.cp, clk := t.clk, tim := t.tim })

/-- A self-test starts each period; one that passes arms a waiting Hardpan, unless a rule written meanwhile bars it with the cause of R366;
one that fails takes `RELEASED` away, records its cause and a fault (09 R364 to R366, R375, R377).
A feedback ball that disagrees takes `RELEASED` away, is counted and recorded (09 R378); its end is noted (R364). -/
def Obligations.ChecksDecideArmingAndRelease : Prop :=
  (∀ s, i2Runs s = true → exec .selftestPeriod s = .next { s with hp := { s.hp with stRun := true } }) ∧
    (∀ (o : SelfTestObs) s, i2Runs s = true → s.hp.stRun = true → selftestCause s o = 0 →
      (s.hp.arming = true → armCause s = none) →
      ∃ t, exec (.selftestDone o) s = .next t ∧
        t.hp = { s.hp with stRun := false, runst := false, stRan := true, stLast := true, passes := satInc 0xFFFF s.hp.passes,
                           armed := s.hp.armed || s.hp.arming, released := s.hp.released && !s.hp.arming,
                           kcause := if s.hp.arming then kOk else s.hp.kcause, arming := false } ∧
        t = { s with hp := t.hp, tim := t.tim }) ∧
    (∀ (o : SelfTestObs) s k, i2Runs s = true → s.hp.stRun = true → selftestCause s o = 0 → s.hp.arming = true → armCause s = some k →
      ∃ t, exec (.selftestDone o) s = .next t ∧
        t.hp = { s.hp with stRun := false, runst := false, stRan := true, stLast := true, passes := satInc 0xFFFF s.hp.passes,
                           kerr := true, kcause := k, arming := false } ∧
        t = { s with hp := t.hp, tim := t.tim }) ∧
    (∀ (o : SelfTestObs) s, i2Runs s = true → s.hp.stRun = true → selftestCause s o ≠ 0 → s.flt.recs.length < 32 →
      ∃ t, exec (.selftestDone o) s = .next t ∧
        t.hp = { s.hp with stRun := false, runst := false, stRan := true, stLast := false, fails := satInc 0xFF s.hp.fails, stfail := true,
                           cause := selftestCause s o, released := false, kerr := s.hp.kerr || s.hp.arming,
                           kcause := if s.hp.arming then (armCause s).getD kSelftest else s.hp.kcause, arming := false } ∧
        t.flt.recs.map (fun r => (r.code, r.cas)) =
          s.flt.recs.map (fun r => (r.code, r.cas)) ++ [(0x20, BitVec.ofNat 8 (selftestCause s o))] ∧
        t = { s with hp := t.hp, tim := t.tim, flt := t.flt, pwr := t.pwr, cp := t.cp, slip0 := t.slip0, slip1 := t.slip1 }) ∧
    (∀ (ball : FbBall) s, i2Runs s = true → (if ball = .a then s.hp.misA else s.hp.misB) = false → s.flt.recs.length < 32 →
    ∃ t, exec (.feedbackMismatch ball) s = .next t ∧ t.hp.released = false ∧ outputsRun t = false ∧
      t.hp.mismatch = satInc 0xFFFF s.hp.mismatch ∧ (if ball = .a then t.hp.misA else t.hp.misB) = true ∧
      t.flt.recs.map (fun r => (r.code, r.cas)) = s.flt.recs.map (fun r => (r.code, r.cas)) ++ [(0x21, if ball = .a then 1 else 2)] ∧
      t = { s with hp := t.hp, tim := t.tim, flt := t.flt, pwr := t.pwr, cp := t.cp, slip0 := t.slip0, slip1 := t.slip1 }) ∧
    (∀ s, exec (.feedbackMismatchEnd .a) s = .next { s with hp := { s.hp with misA := false } } ∧
      exec (.feedbackMismatchEnd .b) s = .next { s with hp := { s.hp with misB := false } })

/-! ### Silt tier and sediment (chapter 10) -/

/-- The class that `l` names has the highest of the 64 confidences, the lowest number among equals (10 R397). -/
abbrev IsTopLabel (l : Nat) (cs : List Nat) : Prop :=
  l < 64 ∧ (∀ k < l, nth cs k 0 < nth cs l 0) ∧ ∀ k < 64, nth cs k 0 ≤ nth cs l 0

/-- `SCE_CTRL` (10 R388, R412): RUN is taken when a model is loaded and its inference fits the period, else RUNERR is set; RUN = 0 is always
taken; an engine that runs goes on running when a later RUN = 1 is refused (DEDUCED, log 68). An inference starts on a period boundary,
with its input gathered, and takes `AUD` into force (R412); one asked for while another runs is an overrun, one with a STALE or FAULT
channel a skip, and both mark the open sediment entry (R389 to R394, R403).
The end of an inference (10 R396 to R399, R404): the results are counted, the top class and its confidence are read from the result
region, the top label is 0xFF below `MINCONF` and becomes the label when its run is long enough, the confidences are on their way to
Hardpan, the stamp of the start stands behind the result, and the result counts in the open sediment entry. A failed check or an
uncorrectable error on the SCE stops it with a record (R384). -/
def Obligations.InferencesRunToAResult : Prop :=
  (∀ (v : Word) s, WinReaches 0x40140100 s →
    exec (.sceRun v) s = .next { s with sce := { s.sce with
      fault := s.sce.fault && !bit v 29, minconf := bits v 15 8, ldb := bits v 7 4,
      run := bit v 31 && (s.sce.run || (s.sce.loaded && sceFits s.sce)),
      runerr := bit v 31 && !(s.sce.loaded && sceFits s.sce) } }) ∧
    (∀ u s, s.wf → s.memOk → pdOn s 3 = true → pdOn s 4 = true → s.sce.run = true → 0 < bits s.sce.per 19 0 →
      u % bits s.sce.per 19 0 = 0 → (islSt s 20).held = false → s.sce.busy = false →
      (∀ n ∈ sceChans s.sce, (chanSt s n).verdict ≠ vStale ∧ (chanSt s n).verdict ≠ vFault) → (gatherInput s).length ≤ 0x1000 →
      ∃ t, exec (.inferenceStart u) s = .next t ∧ t.sce = { s.sce with busy := true, start := now (instant (askFio s)), aud := bits s.sce.inp 9 8 } ∧
        readBytes t sceInput (gatherInput s).length = gatherInput s ∧
        (∀ a, a < sceInput ∨ sceInput + (gatherInput s).length ≤ a → readByte t a = readByte s a) ∧
        (engSt t .sce).cur = some ⟨0, 0, s.sce.cbase, 0, s.sce.ncmd, .ready, [], [], [], [], none⟩ ∧
        (∀ e, e ≠ .sce → engSt t e = engSt s e) ∧
        t = { s with sce := t.sce, mem := t.mem, ecc := t.ecc, engs := t.engs, tim := t.tim, clk := t.clk }) ∧
    (∀ u s, s.wf → pdOn s 3 = true → pdOn s 4 = true → s.sce.run = true → 0 < bits s.sce.per 19 0 →
      u % bits s.sce.per 19 0 = 0 → (islSt s 20).held = false →
      (s.sce.busy = true ∨ ∃ n ∈ sceChans s.sce, (chanSt s n).verdict = vStale ∨ (chanSt s n).verdict = vFault) →
      ∃ t, exec (.inferenceStart u) s = .next t ∧
        t.sce = (if s.sce.busy then { s.sce with overruns := satInc 0xFF s.sce.overruns, evt := s.sce.evt ||| 0b10000 }
                 else { s.sce with skips := satInc 0xFF s.sce.skips, evt := s.sce.evt ||| 0b01000, aud := bits s.sce.inp 9 8 }) ∧
        (sedLive s = true → (sedOpen t 0).incomplete = true) ∧
        t = { s with sce := t.sce, sed := t.sed, mem := t.mem, ecc := t.ecc, tim := t.tim, clk := t.clk }) ∧
    (∀ s cs, s.sce.busy = true → (engSt s .sce).cur = none → cs = (readBytes s sceResult 64).map BitVec.toNat →
      s.memOk → s.wf → (∀ k < 3, (sedOpen s k).cnt.length = 64) →
      ∃ t l, exec .inferenceDone s = .next t ∧ IsTopLabel l cs ∧
        t.sce.busy = false ∧ t.sce.results = (s.sce.results + 1) % 2 ^ 16 ∧ t.sce.rseq = (s.sce.rseq + 1) % 256 ∧
        t.sce.top = (if s.sce.minconf ≤ nth cs l 0 then BitVec.ofNat 8 l else 0xFF) ∧ t.sce.conf = BitVec.ofNat 8 (nth cs l 0) ∧
        t.sce.candRun = (if s.sce.cand = t.sce.top then satInc 16 s.sce.candRun else 1) ∧
        t.sce.label = (if s.sce.ldb + 1 ≤ t.sce.candRun then t.sce.top else s.sce.label) ∧
        t.hp = { s.hp with conf := cs, sceIn := true } ∧ readBytes t (sceResult + 64) 8 = leBytes 8 s.sce.start.dt ∧
        (∀ a, a < 0x20000000 ∨ 0x200C0000 ≤ a → a < sceResult + 64 ∨ sceResult + 72 ≤ a → readByte t a = readByte s a) ∧
        (sedLive s = true → (∀ k < 3, s.sce.start.dt < (sedOpen s k).start + sedPeriod k) → (sedOpen s 0).start ≤ s.sce.start.dt →
          (sedOpen t 0).n = Nat.min ((sedOpen s 0).n + 1) 0xFFFFFFFF ∧
            (sedOpen t 0).qual = maxQual (sedOpen s 0).qual s.sce.start.qual ∧
            ∀ k < 64, nth (sedOpen t 0).cnt k 0 =
              if k = t.sce.top.toNat then satInc 0xFF (nth (sedOpen s 0).cnt k 0) else nth (sedOpen s 0).cnt k 0) ∧
        (sedLive s = false → t.sed = s.sed) ∧
        t = { s with sce := t.sce, hp := t.hp, sed := t.sed, mem := t.mem, ecc := t.ecc, tim := t.tim, cp := t.cp, pwr := t.pwr,
                     slip0 := t.slip0, slip1 := t.slip1 }) ∧
    (∀ s x code cas, s.wf → engineReady s .sce = true → startOf s .sce = some x →
      (fetchEcc s x.l = true ∧ code = 0x10 ∧ cas = 0 ∨
        (∃ i, fetchEcc s x.l = false ∧ illegal s .sce x.l x.en x.c = some i ∧ code = i.code ∧ cas = i.cas) ∨
        fetchEcc s x.l = false ∧ illegal s .sce x.l x.en x.c = none ∧ operandEcc s .sce x.os = true ∧ code = 0x10 ∧ cas = 0) →
      s.flt.recs.length < 32 →
      ∃ t, exec .sceFault s = .next t ∧ t.sce.run = false ∧ t.sce.fault = true ∧ t.sce.busy = false ∧ (engSt t .sce).cur = none ∧
        t.flt.recs.map (fun r => (r.code, r.cas)) =
          s.flt.recs.map (fun r => (r.code, r.cas)) ++ [(BitVec.ofNat 8 code, BitVec.ofNat 8 cas)] ∧
        (∀ e, e ≠ .sce → engSt t e = engSt s e) ∧
        t = { s with sce := t.sce, engs := t.engs, flt := t.flt, tim := t.tim, cp := t.cp, pwr := t.pwr, slip0 := t.slip0,
                     slip1 := t.slip1 })

/-- Roll-up and queries (10 R403 to R411). When DT has passed the end of the open second, its entry closes: one that counted results is
written in its ring with its number and added into the open minute, an empty one is not written; the next second opens. A query of the
open entry follows it to its place in the ring (R409; where it is not written, to no entry, log 68).
A write of `SED_QADDR` selects the entry that STR and AGE, or OPEN, name, if there is one, and starts the prefetch of its word; it is
turned away while PD17 is off (R411). The prefetch ends with the word, with ADDR_ERR where the query names none, or with the peer-reset
status (R410, R413). The read returns BUSY while it runs, ADDR_ERR without moving, or the word, and moves WORD on with the next
prefetch. -/
def Obligations.SedimentIsRolledUpAndRead : Prop :=
  (∀ s, s.wf → s.memOk → sedLive s = true → (islSt s 54).held = false → (sedOpen s 0).n ≠ 0 → (sedOpen s 0).cnt.length = 64 → (sedOpen s 1).cnt.length = 64 →
    (sedOpen s 0).start + 2 ^ 20 ≤ dtNow (instant s) → dtNow (instant s) < (sedOpen s 1).start + 60 * 2 ^ 20 →
    dtNow (instant s) < (sedOpen s 2).start + 3600 * 2 ^ 20 →
    ∃ t, exec .sedimentClose s = .next t ∧ sedWritten t 0 = sedWritten s 0 + 1 ∧
      readBytes t (0x20000000 + sedWritten s 0 % 4096 * 80) 8 = leBytes 8 (sedOpen s 0).start ∧
      readBytes t (0x20000000 + sedWritten s 0 % 4096 * 80 + 8) 4 = leBytes 4 (sedOpen s 0).n ∧
      readBytes t (0x20000000 + sedWritten s 0 % 4096 * 80 + 12) 2 = leBytes 2 (sedWritten s 0) ∧
      readBytes t (0x20000000 + sedWritten s 0 % 4096 * 80 + 16) 64 = (sedOpen s 0).cnt.map (BitVec.ofNat 8) ∧
      (sedOpen t 1).n = Nat.min ((sedOpen s 1).n + (sedOpen s 0).n) 0xFFFFFFFF ∧
      (sedOpen t 0) = .empty (dtNow (instant s) / 2 ^ 20 * 2 ^ 20) ∧
      (t.sed.sel, t.sed.selBad) = (if s.sed.sel = none ∧ s.sed.selBad = false ∧ bits s.sed.qaddr 31 30 = 0 then
        (some (sedWritten s 0), false) else (s.sed.sel, s.sed.selBad)) ∧
      (∀ a, a < 0x200BFD00 ∨ 0x200BFEF0 ≤ a →
        a < 0x20000000 + sedWritten s 0 % 4096 * 80 ∨ 0x20000000 + sedWritten s 0 % 4096 * 80 + 80 ≤ a → readByte t a = readByte s a) ∧
      t = { s with sed := t.sed, mem := t.mem, ecc := t.ecc, tim := t.tim }) ∧
    (∀ s, s.wf → s.memOk → sedLive s = true → (islSt s 54).held = false → (sedOpen s 0).n = 0 → (sedOpen s 0).incomplete = false →
    (sedOpen s 0).start + 2 ^ 20 ≤ dtNow (instant s) → dtNow (instant s) < (sedOpen s 1).start + 60 * 2 ^ 20 →
    dtNow (instant s) < (sedOpen s 2).start + 3600 * 2 ^ 20 →
    ∃ t, exec .sedimentClose s = .next t ∧ t.sed.written = s.sed.written ∧
      (sedOpen t 0) = .empty (dtNow (instant s) / 2 ^ 20 * 2 ^ 20) ∧ sedOpen t 1 = sedOpen s 1 ∧ sedOpen t 2 = sedOpen s 2 ∧
      t.sed.sel = s.sed.sel ∧
      t.sed.selBad = (s.sed.selBad || decide (s.sed.sel = none ∧ bits s.sed.qaddr 31 30 = 0)) ∧
      (∀ a, a < 0x200BFD00 ∨ 0x200BFD50 ≤ a → readByte t a = readByte s a) ∧
      t = { s with sed := t.sed, mem := t.mem, ecc := t.ecc, tim := t.tim }) ∧
    (∀ f (v : Word) s, Reaches f 0x64 v s → sedQueryDark s = false → bits v 31 30 ≠ 3 →
      ∃ t, exec (.sedQaddrWrite f v) s = .next t ∧
        (t.sed.sel, t.sed.selBad) = (if bit v 29 then (none, false)
          else if bits v 27 16 < Nat.min (sedRing (bits v 31 30)) (sedWritten s (bits v 31 30)) then
            (some (sedWritten s (bits v 31 30) - 1 - bits v 27 16), false)
          else (none, true)) ∧
        bits t.sed.qaddr 31 30 = bits v 31 30 ∧ bit t.sed.qaddr 29 = bit v 29 ∧ bits t.sed.qaddr 27 16 = bits v 27 16 ∧
        bits t.sed.qaddr 6 0 = bits v 6 0 ∧
        t.sed = { s.sed with qaddr := t.sed.qaddr, sel := t.sed.sel, selBad := t.sed.selBad, pbusy := true, ppeer := false,
                             plate := removedByEntry s 17 } ∧
        t.cp = linkedTo s.cp 0x64 0 f.seq ∧ t = { s with sed := t.sed, cp := t.cp, clk := t.clk, tim := t.tim }) ∧
    (∀ f (v : Word) s, Reaches f 0x64 v s → sedQueryDark s = true →
      ∃ t, exec (.sedQaddrWrite f v) s = .next t ∧ t.cp = linkedTo s.cp 0x64 2 f.seq ∧
        t = { s with cp := t.cp, clk := t.clk, tim := t.tim }) ∧
    (∀ s, s.sed.pbusy = true → s.sed.ppeer = false → s.sed.plate = false → pdDark s 17 = false → removedByEntry s 17 = false →
      s.wiping.contains .sed = false → queryBad s = false → eccHit s (queryAddr s) 4 = false →
      exec .sedPrefetchDone s = .next { s with sed := { s.sed with pbusy := false, pstat := 0, pdata := readWord s (queryAddr s) } }) ∧
    (∀ s, s.sed.pbusy = true → s.sed.ppeer = false → s.sed.plate = false → pdDark s 17 = false → removedByEntry s 17 = false →
      s.wiping.contains .sed = false → queryBad s = true →
      exec .sedPrefetchDone s = .next { s with sed := { s.sed with pbusy := false, pstat := 1, pdata := 0 } }) ∧
    (∀ s, s.sed.pbusy = true → s.sed.ppeer = true →
      exec .sedPrefetchDone s = .next { s with sed := { s.sed with pbusy := false, pstat := 3, pdata := 0 } }) ∧
    (∀ (r : Rd) s, cpServes s = true → addressed s r.addr = true → (r.early = false ∨ s.boot.strapCp = true) → r.pre = [] →
      life s ≠ .retired → sedQueryDark s = false → s.sed.pbusy = false → queryBad s = false → s.sed.pstat = 0 →
      ∃ t, exec (.sedQdataRead r) s = .next t ∧ t.cp.disc = false ∧
        t.cp.resp.map (fun x => (bits x.status 7 5, x.data)) = some (0, s.sed.pdata) ∧
        bits t.sed.qaddr 6 0 = (bits s.sed.qaddr 6 0 + 1) % 128 ∧ (∀ k, 7 ≤ k → bit t.sed.qaddr k = bit s.sed.qaddr k) ∧
        t.sed = { s.sed with qaddr := t.sed.qaddr, pbusy := true, ppeer := false, plate := removedByEntry s 17 } ∧
        t = { s with sed := t.sed, cp := t.cp, clk := t.clk, tim := t.tim }) ∧
    (∀ (r : Rd) s, cpServes s = true → addressed s r.addr = true → (r.early = false ∨ s.boot.strapCp = true) → r.pre = [] →
      life s ≠ .retired → sedQueryDark s = false → (s.sed.pbusy = true ∨ queryBad s = true) →
      ∃ t, exec (.sedQdataRead r) s = .next t ∧
        t.cp.resp.map (fun x => (bits x.status 7 5, x.data)) = some (if s.sed.pbusy then 4 else 1, 0) ∧
        t = { s with cp := t.cp, clk := t.clk, tim := t.tim })

/-! ### Queues, streams, the event queue (chapter 11) -/

/-- Streams (11 R453 to R458): a stream of a valid queue with a bandwidth opens when every charge stays within its limit, else the result
says why not; an open one closes.
Stalls (11 R433, R434, R470) and pending events (R462): a lane stalled on an empty queue goes on when items are visible, one that
waits for space when its whole request is granted, holding the space of its STALL queues, and never in part; a stall on a full sink that
lasts is reported once; a pending event is written behind those that firmware has not consumed. -/
def Obligations.StreamsAndStallsAreAdmitted : Prop :=
  (∀ (q : BitVec 14) s, WinReaches 0x40180100 s →
    exec (.qmStreamOpen q) s = .next (
      if (qd s q.toNat).cls = clsUnused ∨ (qd s q.toNat).rbw = 0 then { s with qm := { s.qm with resResult := 2, resQid := q } }
      else if s.qm.streams.contains q.toNat = true then { s with qm := { s.qm with resResult := 3, resQid := q } }
      else if chargesFit { s with qm := { s.qm with streams := s.qm.streams ++ [q.toNat] } } (Nat.min s.pwr.opCur s.pwr.opTgt) = true
        then { s with qm := { s.qm with streams := s.qm.streams ++ [q.toNat], resResult := 0, resQid := q } }
      else { s with qm := { s.qm with resResult := 1, resQid := q } })) ∧
    (∀ (q : BitVec 14) s, WinReaches 0x40180100 s → s.qm.streams.contains q.toNat = true →
      exec (.qmStreamClose q) s =
        .next { s with qm := { s.qm with streams := s.qm.streams.filter (· != q.toNat), resResult := 0, resQid := q } }) ∧
    (∀ (q : BitVec 14) s, WinReaches 0x40180100 s → s.qm.streams.contains q.toNat = false →
      exec (.qmStreamClose q) s = .next { s with qm := { s.qm with resResult := 4, resQid := q } }) ∧
    (∀ e (q : BitVec 14) l s, engineReady s e = true → islRuns s 24 = true → (engSt s e).cur = some l → l.stage = .stallIn q →
    (qd s q.toNat).vis ≠ 0 →
    exec (.queueStallEnd e) s = .next (updEng s e (fun g => { g with cur := some { l with stage := .ready } }))) ∧
    (∀ c e req l s, (c = .reservationGrant e ∨ c = .queueStallEnd e) → engineReady s e = true → islRuns s 24 = true →
      (engSt s e).cur = some l → l.stage = .stallOut req → (∀ x ∈ req, (qd s x.1).ovf = true ∨ x.2 ≤ qFree s x.1) →
      ∃ t, exec c s = .next t ∧
        (engSt t e).cur = some { l with stage := .ready, resv := req.filter (fun x => !(qd s x.1).ovf) } ∧
        (∀ g, g ≠ e → engSt t g = engSt s g) ∧ t.qm = { s.qm with reported := t.qm.reported } ∧
        (∀ q ∈ t.qm.reported, q ∈ s.qm.reported) ∧ t = { s with engs := t.engs, qm := t.qm }) ∧
    (∀ c e req l s, (c = .reservationGrant e ∨ c = .queueStallEnd e) → (engSt s e).cur = some l → l.stage = .stallOut req →
      (∃ x ∈ req, (qd s x.1).ovf = false ∧ qFree s x.1 < x.2) → exec c s = .next s) ∧
    (∀ (q : BitVec 14) s, islRuns s 24 = true → stalledOn s q.toNat = true → (qd s q.toNat).cls = clsSink → (qd s q.toNat).ovf = false →
      s.qm.sstall ≠ 0 → s.qm.reported.contains q.toNat = false →
      ∃ t, exec (.sinkStallTimeout q) s = .next t ∧
        t.qm = { s.qm with reported := s.qm.reported ++ [q.toNat], sstallQid := if s.qm.sstallValid then s.qm.sstallQid else q,
                           sstallValid := true } ∧
        t.cp = { s.cp with intStatus := s.cp.intStatus ||| 0b10000000 } ∧
        t = { s with qm := t.qm, cp := t.cp, slip0 := t.slip0, slip1 := t.slip1 }) ∧
    (∀ s ord ev rest, s.qm.evPend = (ord, ev) :: rest → s.qm.evq.length + 64 ≤ 256 → islRuns s 24 = true →
      ∃ t, exec .eventQueueWrite s = .next t ∧ t.qm.evPend = rest ∧
        (∃ k ≤ s.qm.evq.length, t.qm.evq = s.qm.evq.drop k ++ [ev]) ∧ (∀ q, q ≠ 16383 → qd t q = qd s q) ∧ QdtMarks s t ∧
        t = { s with qm := t.qm, ecc := t.ecc })

/-! ### Engines (chapters 11 to 13) -/

/-- Engine `e` is about to carry out the command `x` of opcode `opc`, and nothing turns it away: the engine runs, its command word can be
fetched, no check fails, the tiles and islands that its operands lie in answer. -/
abbrev Starts (s : State) (e : Eng) (opc : Nat) (x : Start) : Prop :=
  s.wf ∧ engineReady s e = true ∧ startOf s e = some x ∧ rangeHeld s (x.l.base + x.l.off) 32 = false ∧ fetchEcc s x.l = false ∧
    illegal s e x.l x.en x.c = none ∧ x.c.opc = opc ∧ onFailedTile s x.os = false ∧ mustWait s e x.en x.os = false

/-- An event is written, or waits to be (11 R462). -/
abbrev EventKept (t : State) (ordinary : Bool) (ev : Event) : Prop := (ordinary, ev) ∈ t.qm.evPend ∨ ev ∈ t.qm.evq

/-- The event that the present command of engine `e`, in lane `l`, asks for on its completion is raised; without one no queue changes
(12 R477). -/
abbrev CompletionNoted (s t : State) (e : Eng) (l : Lane) : Prop :=
  if (cmdAt s (l.base + l.off)).evt then
    EventKept t false (.completion e (laneEntry s e l).job (BitVec.ofNat 32 l.off)) else t.qm = s.qm

/-- The present command of engine `e`, in lane `l`, has completed: it is counted, its event raised, and the lane stands at the next
(12 R477). -/
abbrev CommandDone (s t : State) (e : Eng) (l : Lane) : Prop :=
  (engSt t e).cur = some { l with off := l.off + 32, stage := .ready, ins := [], resv := [], adapt := none } ∧
    (engSt t e).cmds = (engSt s e).cmds + 1 ∧ (∀ g, g ≠ e → engSt t g = engSt s g) ∧ CompletionNoted s t e l

/-- The attempt of ledger entry `i` has ended in a fault: one record, RESTARTING, no lane of it waiting and those that engines run
standing in ABANDON, no other job touched; of memory nothing changed but what those lanes had written (14 R575, R587, 12 R485). -/
abbrev JobFaulted (s t : State) (i : Nat) (code cas : Byte) : Prop :=
  (entrySt t i).st = .restarting ∧ (∀ j, j ≠ i → entrySt t j = entrySt s j) ∧
    t.flt.recs.map (fun r => (r.code, r.cas, r.jv, r.job)) =
      s.flt.recs.map (fun r => (r.code, r.cas, r.jv, r.job)) ++ [(code, cas, true, (entrySt s i).job)] ∧
    (∀ e ∈ loamEngs, (engSt t e).cur.all (fun l => l.entry != i || l.stage == .abandon) = true ∧
      (engSt t e).wait.all (fun l => l.entry != i) = true) ∧
    (s.memOk → ∀ a, (∀ e ∈ loamEngs, ∀ l, (engSt s e).cur = some l → l.entry = i → ∀ w ∈ l.wbuf, a < w.1 ∨ w.1 + w.2.length ≤ a) →
      readByte t a = readByte s a)

/-- The lane of engine `e` has executed its present command, which `l` stood at; what it wrote may wait to become visible. -/
abbrev LaneExecuted (t : State) (e : Eng) (l : Lane) : Prop :=
  (engSt t e).cur.map (fun k => { k with wbuf := [] }) = some { l with stage := .executed, resv := [], wbuf := [] }

/-- Bytes that a Loam engine has written are in its lane only, for no other lane to see (12 R479). -/
abbrev HeldBack (s t : State) (e : Eng) : Prop := e ≠ .sce → t.mem = s.mem ∧ t.clay = s.clay ∧ QdtMarks s t

/-- The rows of the table that carry out an engine's command, with their opcodes (12 R492). -/
def engineRows : List (Nat × (Eng → Instr)) :=
  [(0x00, .nop), (0x01, .mark), (0x02, .fence), (0x03, .commit), (0x08, .swait), (0x09, .ssig), (0x0A, .twait), (0x0C, .enq),
   (0x0D, .deq), (0x10, .mov), (0x11, .gath), (0x12, .scat), (0x20, .mma), (0x21, .conv), (0x22, .dwcv), (0x23, .pool), (0x24, .red),
   (0x28, .vop), (0x29, .act), (0x30, .qscan), (0x31, .qpack), (0x32, .qunpk), (0x33, .rscl)]

/-- A command of a Loam engine that fails a check ends its job's attempt with a record of the check's code and case, one whose word holds
an uncorrectable error with code 0x10 (12 R495, R496, 14 R575); a row acts on commands of its own opcode only. -/
def Obligations.IllegalCommandsFaultTheirJob : Prop :=
  ∀ r ∈ engineRows, ∀ e x s, s.wf → engineReady s e = true → startOf s e = some x → rangeHeld s (x.l.base + x.l.off) 32 = false →
    (∀ i, e ≠ .sce → fetchEcc s x.l = false → startIll s e r.1 x = some i → (entrySt s x.l.entry).st = .running →
      s.flt.recs.length < 32 →
      ∃ t, exec (r.2 e) s = .next t ∧ JobFaulted s t x.l.entry (BitVec.ofNat 8 i.code) (BitVec.ofNat 8 i.cas) ∧
        t = { s with engs := t.engs, ldg := t.ldg, flt := t.flt, qm := t.qm, tim := t.tim, cp := t.cp, pwr := t.pwr, slip0 := t.slip0,
                     slip1 := t.slip1, mem := t.mem, clay := t.clay, ecc := t.ecc }) ∧
    (e ≠ .sce → fetchEcc s x.l = true → (entrySt s x.l.entry).st = .running → s.flt.recs.length < 32 →
      ∃ t, exec (r.2 e) s = .next t ∧ JobFaulted s t x.l.entry 0x10 0 ∧
        t = { s with engs := t.engs, ldg := t.ldg, flt := t.flt, qm := t.qm, tim := t.tim, cp := t.cp, pwr := t.pwr, slip0 := t.slip0,
                     slip1 := t.slip1, mem := t.mem, clay := t.clay, ecc := t.ecc }) ∧
    (fetchEcc s x.l = false → startIll s e r.1 x = none → x.c.opc ≠ r.1 → exec (r.2 e) s = .next s)

/-- NOP does nothing more; MARK raises an event with its two words, the job and the time, on the SCE it fills the mark registers;
FENCE waits for its acknowledgements (12 R506, R507, 10 R385). COMMIT makes what the lane wrote visible and ends it, and the job is DONE
when its last lane has ended (12 R479, R482, 14 R580). An executed command completes: what QPACK keeps for then is written, its event is
raised; while eight events of the engine are unwritten it waits (12 R477, 13 R553, 11 R464). A fence completes with the lane's writes
visible to all (12 R479, R507), a SSIG that waited for them adds; an abandoned command ends and the engine takes its next lane (R485);
the SCE's lane ends after its last command. A command that runs too long faults its job with code 0x14 (12 R483). -/
def Obligations.ControlCommandsRun : Prop :=
  (∀ e x s, Starts s e 0x00 x → exec (.nop e) s =
    .next (updEng (instant s) e (fun g => { g with cur := some { x.l with stage := .executed, resv := [] } }))) ∧
    (∀ e x s, Starts s e 0x01 x → e ≠ .sce →
      ∃ t, exec (.mark e) s = .next t ∧ (engSt t e).cur = some { x.l with stage := .executed, resv := [] } ∧
        EventKept t true (.mark x.c.p0 x.c.p1 x.en.job (BitVec.ofNat 32 (dtNow (instant s)))) ∧
        (s.qm.evPend = [] → s.qm.evq.length + 64 ≤ 256 → t.qm.evPend = [] ∧ ∃ k ≤ s.qm.evq.length, t.qm.evq =
          s.qm.evq.drop k ++ [.mark x.c.p0 x.c.p1 x.en.job (BitVec.ofNat 32 (dtNow (instant s)))]) ∧
        (∀ q, q ≠ 16383 → qd t q = qd s q) ∧ QdtMarks s t ∧
        t = { s with engs := t.engs, qm := t.qm, tim := t.tim, ecc := t.ecc }) ∧
    (∀ c x s, (c = .mark .sce ∨ c = .sceMark) → Starts s .sce 0x01 x →
      ∃ t, exec c s = .next t ∧ (engSt t .sce).cur = some { x.l with stage := .executed, resv := [] } ∧
        t.sce = { s.sce with mark0 := x.c.p0, mark1 := x.c.p1, mark2 := BitVec.ofNat 32 (dtNow (instant s)), marks := s.sce.marks + 1 } ∧
        t = { s with engs := t.engs, sce := t.sce, tim := t.tim }) ∧
    (∀ e x s, Starts s e 0x02 x →
      exec (.fence e) s = .next (updEng (instant s) e (fun g => { g with cur := some { x.l with stage := .fenced } }))) ∧
    (∀ e x s, Starts s e 0x03 x → e ≠ .sce → islRuns s 26 = true → eventWaits s e x.l = false → (engSt s e).wait = [] →
      x.l.entry < 256 →
      ∃ t, exec (.commit e) s = .next t ∧ (engSt t e).cur = none ∧ (engSt t e).cmds = (engSt s e).cmds + 1 ∧
        (∀ g, g ≠ e → engSt t g = engSt s g) ∧ CompletionNoted s t e x.l ∧ (∀ a ∈ t.ecc, a ∈ s.ecc) ∧
        (∀ a, readByte t a = readByte (viewOf s e) a) ∧
        entrySt t x.l.entry = { x.en with
          doneLanes := x.en.doneLanes ++ [x.l.index],
          st := if ∀ k < (entryImg s x.en).lanes.length, k ∈ x.en.doneLanes ++ [x.l.index] then .done else x.en.st } ∧
        (∀ j, j ≠ x.l.entry → entrySt t j = entrySt s j) ∧
        t = { s with engs := t.engs, ldg := t.ldg, qm := t.qm, tim := t.tim, mem := t.mem, clay := t.clay, ecc := t.ecc }) ∧
    (∀ e l s, s.wf → e ≠ .sce → engineReady s e = true → (engSt s e).cur = some l → l.stage = .executed → eventWaits s e l = false →
      ∃ t, exec (.commandComplete e) s = .next t ∧ CommandDone s t e l ∧ QdtMarks s t ∧
        t.scc = (match l.adapt with
          | some (off, bs) => zsetMany s.scc off bs
          | none => s.scc) ∧
        t = { s with engs := t.engs, scc := t.scc, sccEcc := t.sccEcc, qm := t.qm, ecc := t.ecc, tim := t.tim }) ∧
    (∀ e l s, engineReady s e = true → (engSt s e).cur = some l → l.stage = .executed → eventWaits s e l = true →
      exec (.commandComplete e) s = .next (updEng (instant s) e (fun g => { g with cur := some { l with resv := [] } }))) ∧
    (∀ e l s, s.wf → e ≠ .sce → engineReady s e = true → (engSt s e).cur = some l → l.stage = .fenced → fenceWaits s e = false →
      l.adapt = none → eventWaits s e l = false → cmdAt (viewOf s e) (l.base + l.off) = cmdAt s (l.base + l.off) →
      (cmdAt s (l.base + l.off)).opc ≠ 0x09 →
      ∃ t, exec (.commandComplete e) s = .next t ∧ CommandDone s t e { l with wbuf := [] } ∧
        (∀ a ∈ t.ecc, a ∈ s.ecc) ∧ (∀ a, readByte t a = readByte (viewOf s e) a) ∧
        t = { s with engs := t.engs, qm := t.qm, tim := t.tim, mem := t.mem, clay := t.clay, ecc := t.ecc }) ∧
    (∀ e l n k s, s.wf → e ≠ .sce → engineReady s e = true → (engSt s e).cur = some l → l.stage = .fenced → fenceWaits s e = false →
      l.adapt = none → eventWaits s e l = false → cmdAt (viewOf s e) (l.base + l.off) = cmdAt s (l.base + l.off) →
      (cmdAt s (l.base + l.off)).opc = 0x09 → islRuns s 25 = true → l.entry < 256 → 0 < k →
      n = bits (cmdAt s (l.base + l.off)).p0 9 0 → k = bits (cmdAt s (l.base + l.off)).p1 15 0 →
      ∃ t, exec (.commandComplete e) s = .next t ∧ CommandDone s t e { l with wbuf := [] } ∧
        (∀ a ∈ t.ecc, a ∈ s.ecc) ∧ (∀ a, readByte t a = readByte (viewOf s e) a) ∧
        (if (scSt s n).job then scSt t n = { scSt s n with val := (scSt s n).val + BitVec.ofNat 32 k } ∧ t.ldg = s.ldg
         else look (entrySt t l.entry).defer n 0 = look (entrySt s l.entry).defer n 0 + k ∧ t.scs = s.scs) ∧
        t = { s with engs := t.engs, qm := t.qm, tim := t.tim, mem := t.mem, clay := t.clay, ecc := t.ecc, scs := t.scs, ldg := t.ldg }) ∧
    (∀ e l s, s.wf → engineReady s e = true → (engSt s e).cur = some l → l.stage = .abandon →
      ∃ t, exec (.commandComplete e) s = .next t ∧ (engSt t e).cur = (engSt s e).wait.head? ∧
        (engSt t e).wait = (engSt s e).wait.tail ∧ (∀ g, g ≠ e → engSt t g = engSt s g) ∧ t = { s with engs := t.engs }) ∧
    (∀ l s, s.wf → engineReady s .sce = true → (engSt s .sce).cur = some l → l.stage = .executed → l.adapt = none →
      ∃ t, exec (.commandComplete .sce) s = .next t ∧
        (engSt t .sce).cur = (if l.ncmd ≤ l.off / 32 + 1 then none
          else some { l with off := l.off + 32, stage := .ready, ins := [], resv := [], adapt := none }) ∧
        (engSt t .sce).cmds = (engSt s .sce).cmds + 1 ∧ (∀ g, g ≠ .sce → engSt t g = engSt s g) ∧
        t = { s with engs := t.engs, tim := t.tim }) ∧
    (∀ e l s, s.wf → e ≠ .sce → engineReady s e = true → (engSt s e).cur = some l →
      (l.stage = .ready ∨ l.stage = .executed ∨ l.stage = .fenced) → (entrySt s l.entry).st = .running → s.flt.recs.length < 32 →
      ∃ t, exec (.watchdog e) s = .next t ∧ JobFaulted s t l.entry 0x14 0 ∧
        t = { s with engs := t.engs, ldg := t.ldg, flt := t.flt, qm := t.qm, tim := t.tim, cp := t.cp, pwr := t.pwr, slip0 := t.slip0,
                     slip1 := t.slip1, mem := t.mem, clay := t.clay, ecc := t.ecc })

/-- Sync counters (11 R440 to R445): SWAIT is satisfied when the counter has reached T modulo 2^32, else its lane waits until it has,
or until the time is up, which is counted and faults the job with code 0x12. SSIG with no write awaiting its acknowledgement adds at
once, to a JOB counter itself, for a PLAIN one in what the commit will add; with one it first waits as FENCE does (12 R507).
TWAIT (12 R510 to R513): satisfied when D0 items are visible, which then cover the lane's reads; else the lane waits for them, or
for the time to be up, which faults the job with code 0x13; on a queue of a failed tile it faults at once with code 0x15 (17 R669). -/
def Obligations.WaitsEndByCountItemOrTime : Prop :=
  (∀ e x s, Starts s e 0x08 x → e ≠ .sce → eventWaits s e x.l = false → x.l.adapt = none → islRuns s 25 = true →
    ((scSt s (bits x.c.p0 9 0)).val - x.c.p1).toNat < 2 ^ 31 →
    ∃ t, exec (.swait e) s = .next t ∧ CommandDone s t e x.l ∧ QdtMarks s t ∧
      t = { s with engs := t.engs, tim := t.tim, qm := t.qm, ecc := t.ecc }) ∧
    (∀ e x s, Starts s e 0x08 x → islRuns s 25 = true → 2 ^ 31 ≤ ((scSt s (bits x.c.p0 9 0)).val - x.c.p1).toNat →
      exec (.swait e) s = .next (updEng (instant s) e
        (fun g => { g with cur := some { x.l with stage := .waitSc (bits x.c.p0 9 0) x.c.p1 } }))) ∧
    (∀ e l n (tgt : Word) s, s.wf → e ≠ .sce → engineReady s e = true → islRuns s 25 = true → (engSt s e).cur = some l →
      l.stage = .waitSc n tgt → l.adapt = none → eventWaits s e l = false → ((scSt s n).val - tgt).toNat < 2 ^ 31 →
      ∃ t, exec (.swaitComplete e) s = .next t ∧ CommandDone s t e l ∧ QdtMarks s t ∧
        t = { s with engs := t.engs, tim := t.tim, qm := t.qm, ecc := t.ecc }) ∧
    (∀ e l n (tgt : Word) s, s.wf → e ≠ .sce → engineReady s e = true → islRuns s 25 = true → (engSt s e).cur = some l →
      l.stage = .waitSc n tgt → waitCounts s = true → 2 ^ 31 ≤ ((scSt s n).val - tgt).toNat → (entrySt s l.entry).st = .running →
      s.flt.recs.length < 32 →
      ∃ t, exec (.scTimeout e) s = .next t ∧ JobFaulted s t l.entry 0x12 0 ∧ t.scTmo = satInc 0xFFFF s.scTmo ∧
        t = { s with engs := t.engs, ldg := t.ldg, flt := t.flt, qm := t.qm, tim := t.tim, cp := t.cp, pwr := t.pwr, slip0 := t.slip0,
                     slip1 := t.slip1, mem := t.mem, clay := t.clay, ecc := t.ecc, scTmo := t.scTmo }) ∧
    (∀ e x s, Starts s e 0x09 x → islRuns s 25 = true → x.l.wbuf = [] → (scSt s (bits x.c.p0 9 0)).job = true →
      ∃ t, exec (.ssig e) s = .next t ∧ (engSt t e).cur = some { x.l with stage := .executed, resv := [] } ∧
        scSt t (bits x.c.p0 9 0) = { scSt s (bits x.c.p0 9 0) with
          val := (scSt s (bits x.c.p0 9 0)).val + BitVec.ofNat 32 (bits x.c.p1 15 0) } ∧
        (∀ n, n ≠ bits x.c.p0 9 0 → scSt t n = scSt s n) ∧ t = { s with engs := t.engs, scs := t.scs, tim := t.tim }) ∧
    (∀ e x s, Starts s e 0x09 x → islRuns s 25 = true → x.l.wbuf = [] → (scSt s (bits x.c.p0 9 0)).job = false → x.l.entry < 256 →
      ∃ t, exec (.ssig e) s = .next t ∧ (engSt t e).cur = some { x.l with stage := .executed, resv := [] } ∧
        entrySt t x.l.entry = { entrySt s x.l.entry with
          defer := put 0 (entrySt s x.l.entry).defer (bits x.c.p0 9 0)
            (look (entrySt s x.l.entry).defer (bits x.c.p0 9 0) 0 + bits x.c.p1 15 0) } ∧
        (∀ j, j ≠ x.l.entry → entrySt t j = entrySt s j) ∧ t = { s with engs := t.engs, ldg := t.ldg, tim := t.tim }) ∧
    (∀ e x s, Starts s e 0x09 x → islRuns s 25 = true → x.l.wbuf ≠ [] →
      exec (.ssig e) s = .next (updEng (instant s) e (fun g => { g with cur := some { x.l with stage := .fenced } }))) ∧
    (∀ e x q0 q s, Starts s e 0x0A x → e ≠ .sce → eventWaits s e x.l = false → x.l.adapt = none → Ref.of x.c.a = .queue q0 →
      portQueue x.en q0 = some q → queueFailed s q = false → x.c.d0 ≤ (qd s q).vis →
      ∃ t, exec (.twait e) s = .next t ∧ CommandDone s t e { x.l with cov := put 0 x.l.cov q x.c.d0 } ∧ QdtMarks s t ∧
        t = { s with engs := t.engs, tim := t.tim, qm := t.qm, ecc := t.ecc }) ∧
    (∀ e x q0 (q : BitVec 14) s, Starts s e 0x0A x → Ref.of x.c.a = .queue q0 → portQueue x.en q0 = some q.toNat →
      queueFailed s q.toNat = false → (qd s q.toNat).vis < x.c.d0 →
      exec (.twait e) s = .next (updEng (instant s) e
        (fun g => { g with cur := some { x.l with stage := .waitTile q x.c.d0 (bits x.c.p1 4 0) } }))) ∧
    (∀ e x q0 q s, Starts s e 0x0A x → e ≠ .sce → Ref.of x.c.a = .queue q0 → portQueue x.en q0 = some q →
      queueFailed s q = true → (entrySt s x.l.entry).st = .running → s.flt.recs.length < 32 →
      ∃ t, exec (.twait e) s = .next t ∧ JobFaulted s t x.l.entry 0x15 0 ∧
        t = { s with engs := t.engs, ldg := t.ldg, flt := t.flt, qm := t.qm, tim := t.tim, cp := t.cp, pwr := t.pwr, slip0 := t.slip0,
                     slip1 := t.slip1, mem := t.mem, clay := t.clay, ecc := t.ecc }) ∧
    (∀ e l (q : BitVec 14) n tmo s, s.wf → e ≠ .sce → engineReady s e = true → islRuns s 24 = true → (engSt s e).cur = some l →
      l.stage = .waitTile q n tmo → l.adapt = none → eventWaits s e l = false → n ≤ (qd s q.toNat).vis →
      ∃ t, exec (.twaitComplete e) s = .next t ∧ CommandDone s t e { l with cov := put 0 l.cov q.toNat n } ∧ QdtMarks s t ∧
        t = { s with engs := t.engs, tim := t.tim, qm := t.qm, ecc := t.ecc }) ∧
    (∀ e l (q : BitVec 14) n tmo s, s.wf → e ≠ .sce → engineReady s e = true → islRuns s 24 = true → (engSt s e).cur = some l →
      l.stage = .waitTile q n tmo → waitCounts s = true → (qd s q.toNat).vis < n → (entrySt s l.entry).st = .running →
      s.flt.recs.length < 32 →
      ∃ t, exec (.twaitTimeout e) s = .next t ∧ JobFaulted s t l.entry 0x13 0 ∧
        t = { s with engs := t.engs, ldg := t.ldg, flt := t.flt, qm := t.qm, tim := t.tim, cp := t.cp, pwr := t.pwr, slip0 := t.slip0,
                     slip1 := t.slip1, mem := t.mem, clay := t.clay, ecc := t.ecc })

/-- Two byte ranges do not meet. -/
abbrev Apart (a n b m : Nat) : Prop := a + n ≤ b ∨ b + m ≤ a

/-- Error marks that n items written to queue q, and its descriptor, may have taken away: those of the QDT and of the items' words; none is
gained. -/
abbrev QdtOrItems (s t : State) (q n : Nat) : Prop :=
  (∀ a ∈ t.ecc, a ∈ s.ecc) ∧ ∀ a ∈ s.ecc, a < 0x30000000 →
    (∀ k < n, a + 4 ≤ (qd s q).addr ((qd s q).wp + k) ∨ (qd s q).addr ((qd s q).wp + k) + (qd s q).item ≤ a) → a ∈ t.ecc

/-- The n items of queue `d` that are next to be read, one behind the other. -/
abbrev NextItems (s : State) (d : QDesc) (n : Nat) : List Byte := ((List.range n).map (fun k => readBytes s (d.addr (d.rp + k)) d.item)).flatten

/-- The commands that copy (12 R491, R505), between operands in memory that do not meet and hold no error: MOV copies rows at their
pitches, GATH the table rows that the indices name, SCAT to the table rows that they name, the last of equal indices staying. MOV also
copies rows into a queue and out of one, without a pitch there; ENQ appends items to a queue, seen at once unless the queue is TXN, DEQ
takes them; an item for a full DROP_OLDEST queue takes the place of the oldest published one, or is itself dropped, and the drop is
counted (11 R432). Every byte outside the rows written reads as before. A lane sees its own writes, which no other lane sees before its
FENCE or SSIG, or its end (12 R479); the SCE, which has neither, writes at once. -/
def Obligations.CopiesWriteTheirRows : Prop :=
  (∀ e x a o p q s, Starts s e 0x10 x → s.memOk → (e = .sce → x.l.wbuf = []) → Ref.of x.c.a = .mem a → Ref.of x.c.o = .mem o →
    reach s e a (pitched x.c.d0 x.c.d1 x.c.p0.toNat) false = some p → reach s e o (pitched x.c.d0 x.c.d1 x.c.p1.toNat) true = some q →
    Apart p (pitched x.c.d0 x.c.d1 x.c.p0.toNat) q (pitched x.c.d0 x.c.d1 x.c.p1.toNat) →
    eccHit (viewOf s e) p (pitched x.c.d0 x.c.d1 x.c.p0.toNat) = false →
    ∃ t, exec (.mov e) s = .next t ∧ LaneExecuted t e x.l ∧ HeldBack s t e ∧
      (∀ i < x.c.d1, readBytes (viewOf t e) (q + i * x.c.p1.toNat) x.c.d0 = readBytes (viewOf s e) (p + i * x.c.p0.toNat) x.c.d0) ∧
      (∀ b, (∀ i < x.c.d1, b < q + i * x.c.p1.toNat ∨ q + i * x.c.p1.toNat + x.c.d0 ≤ b) →
        readByte (viewOf t e) b = readByte (viewOf s e) b) ∧
      t = { s with engs := t.engs, tim := t.tim, mem := t.mem, clay := t.clay, ecc := t.ecc }) ∧
    (∀ c opc e x a o b p q ob (vs : List Nat) s, (c = .gath e ∧ opc = 0x11 ∨ c = .scat e ∧ opc = 0x12) → Starts s e opc x → s.memOk →
      Ref.of x.c.a = .mem a → Ref.of x.c.b = .mem b → Ref.of x.c.o = .mem o → opdRole x.os .b = some ob →
      opdEcc s e ob 0 ob.span = false → indices s e x ob = vs.map some →
      reach s e a (if opc = 0x11 then x.c.p0.toNat * x.c.d0 else x.c.d0 * x.c.d1) false = some p →
      reach s e o (if opc = 0x11 then x.c.d0 * x.c.d1 else x.c.p0.toNat * x.c.d0) true = some q →
      Apart p (if opc = 0x11 then x.c.p0.toNat * x.c.d0 else x.c.d0 * x.c.d1) q
        (if opc = 0x11 then x.c.d0 * x.c.d1 else x.c.p0.toNat * x.c.d0) →
      eccHit (viewOf s e) p (if opc = 0x11 then x.c.p0.toNat * x.c.d0 else x.c.d0 * x.c.d1) = false →
      ∃ t, exec c s = .next t ∧ LaneExecuted t e x.l ∧ HeldBack s t e ∧
        (∀ i v, vs[i]? = some v → (opc = 0x12 → ∀ j, i < j → vs[j]? ≠ some v) →
          readBytes (viewOf t e) (q + (if opc = 0x11 then i else v) * x.c.d0) x.c.d0 =
            readBytes (viewOf s e) (p + (if opc = 0x11 then v else i) * x.c.d0) x.c.d0) ∧
        (∀ k, (∀ i v, vs[i]? = some v → k < q + (if opc = 0x11 then i else v) * x.c.d0 ∨
          q + (if opc = 0x11 then i else v) * x.c.d0 + x.c.d0 ≤ k) → readByte (viewOf t e) k = readByte (viewOf s e) k) ∧
        t = { s with engs := t.engs, tim := t.tim, mem := t.mem, clay := t.clay, ecc := t.ecc }) ∧
    (∀ e x a q0 q p n s, Starts s e 0x10 x → s.memOk → Ref.of x.c.a = .mem a → Ref.of x.c.o = .queue q0 → portQueue x.en q0 = some q →
      reach s e a (pitched x.c.d0 x.c.d1 x.c.p0.toNat) false = some p →
      eccHit (viewOf s e) p (pitched x.c.d0 x.c.d1 x.c.p0.toNat) = false → x.l.begun = false →
      n = x.c.d0 * x.c.d1 / (qd s q).item → n ≤ qFree s q → RingInTsr (qd s q) →
      ∃ t, exec (.mov e) s = .next t ∧ (engSt t e).cur = some { x.l with stage := .executed, resv := [] } ∧
        ItemsAppended s t q n ((List.range x.c.d1).map (fun i => readBytes (viewOf s e) (p + i * x.c.p0.toNat) x.c.d0)).flatten ∧
        (qd t q).pp = (if (qd s q).scope = scTxn then (qd s q).pp else (qd t q).wp) ∧ QdtOrItems s t q n ∧
        t = { s with engs := t.engs, tim := t.tim, mem := t.mem, ecc := t.ecc, qm := t.qm }) ∧
    (∀ e x o q0 q p n s, Starts s e 0x10 x → s.memOk → Ref.of x.c.o = .mem o → Ref.of x.c.a = .queue q0 → portQueue x.en q0 = some q →
      reach s e o (pitched x.c.d0 x.c.d1 x.c.p1.toNat) true = some p → x.l.begun = false →
      n = x.c.d0 * x.c.d1 / (qd s q).item → n ≤ (qd s q).vis →
      (∀ k < n, eccHit s ((qd s q).addr ((qd s q).rp + k)) (qd s q).item = false) →
      ∃ t, exec (.mov e) s = .next t ∧ (engSt t e).cur.map Lane.stage = some .executed ∧ HeldBack s t e ∧
        (∀ i < x.c.d1, readBytes (viewOf t e) (p + i * x.c.p1.toNat) x.c.d0 =
          ((NextItems s (qd s q) n).drop (i * x.c.d0)).take x.c.d0) ∧
        (∀ b, (∀ i < x.c.d1, b < p + i * x.c.p1.toNat ∨ p + i * x.c.p1.toNat + x.c.d0 ≤ b) →
          readByte (viewOf t e) b = readByte (viewOf s e) b) ∧
        qd t q = (qd s q).consume n ∧ (∀ r, r ≠ q → qd t r = qd s r) ∧
        t = { s with engs := t.engs, tim := t.tim, ecc := t.ecc, qm := t.qm }) ∧
    (∀ e x a q0 q p s, Starts s e 0x0C x → s.memOk → Ref.of x.c.a = .mem a → Ref.of x.c.o = .queue q0 → portQueue x.en q0 = some q →
      reach s e a (x.c.d0 * (qd s q).item) false = some p → eccHit (viewOf s e) p (x.c.d0 * (qd s q).item) = false → x.l.begun = false →
      x.c.d0 ≤ qFree s q → RingInTsr (qd s q) →
      ∃ t, exec (.enq e) s = .next t ∧ (engSt t e).cur = some { x.l with stage := .executed, resv := [] } ∧
        ItemsAppended s t q x.c.d0 (readBytes (viewOf s e) p (x.c.d0 * (qd s q).item)) ∧
        (qd t q).pp = (if (qd s q).scope = scTxn then (qd s q).pp else (qd t q).wp) ∧ QdtOrItems s t q x.c.d0 ∧
        t = { s with engs := t.engs, tim := t.tim, mem := t.mem, ecc := t.ecc, qm := t.qm }) ∧
    (∀ e x a q0 (q : BitVec 14) p s, Starts s e 0x0C x → s.memOk → Ref.of x.c.a = .mem a → Ref.of x.c.o = .queue q0 →
      portQueue x.en q0 = some q.toNat → x.c.d0 = 1 → reach s e a (qd s q.toNat).item false = some p →
      eccHit (viewOf s e) p (qd s q.toNat).item = false → x.l.begun = false → (qd s q.toNat).ovf = true →
      (qd s q.toNat).depth ≤ (qd s q.toNat).occ → RingInTsr (qd s q.toNat) →
      ∃ t, exec (.enq e) s = .next t ∧ (engSt t e).cur = some { x.l with stage := .executed, resv := [] } ∧
        t.qm.dropCnt = satInc 0xFFFFFFFF s.qm.dropCnt ∧ t.qm.dropLast = q ∧
        (if (qd s q.toNat).fp = (qd s q.toNat).rp ∧ (qd s q.toNat).rp ≠ (qd s q.toNat).pp then
          (qd t q.toNat).wp = (qd s q.toNat).plus (qd s q.toNat).wp 1 ∧ (qd t q.toNat).rp = (qd s q.toNat).plus (qd s q.toNat).rp 1 ∧
          (qd t q.toNat).fp = (qd t q.toNat).rp ∧
          readBytes t ((qd s q.toNat).addr (qd s q.toNat).wp) (qd s q.toNat).item = readBytes (viewOf s e) p (qd s q.toNat).item ∧
          ∀ b, b < (qd s q.toNat).addr (qd s q.toNat).wp ∨ (qd s q.toNat).addr (qd s q.toNat).wp + (qd s q.toNat).item ≤ b →
            readByte t b = readByte s b
        else qd t q.toNat = qd s q.toNat ∧ ∀ b, readByte t b = readByte s b) ∧ QdtOrItems s t q.toNat 1 ∧
        t = { s with engs := t.engs, tim := t.tim, mem := t.mem, ecc := t.ecc, qm := t.qm }) ∧
    (∀ e x o q0 q p s, Starts s e 0x0D x → s.memOk → Ref.of x.c.o = .mem o → Ref.of x.c.a = .queue q0 → portQueue x.en q0 = some q →
      reach s e o (x.c.d0 * (qd s q).item) true = some p → x.l.begun = false → x.c.d0 ≤ (qd s q).vis →
      (∀ k < x.c.d0, eccHit s ((qd s q).addr ((qd s q).rp + k)) (qd s q).item = false) →
      ∃ t, exec (.deq e) s = .next t ∧ (engSt t e).cur.map Lane.stage = some .executed ∧ HeldBack s t e ∧
        (∀ k < x.c.d0, readBytes (viewOf t e) (p + k * (qd s q).item) (qd s q).item =
          readBytes s ((qd s q).addr ((qd s q).rp + k)) (qd s q).item) ∧
        (∀ b, b < p ∨ p + x.c.d0 * (qd s q).item ≤ b → readByte (viewOf t e) b = readByte (viewOf s e) b) ∧
        qd t q = (qd s q).consume x.c.d0 ∧ (∀ r, r ≠ q → qd t r = qd s r) ∧
        t = { s with engs := t.engs, tim := t.tim, ecc := t.ecc, qm := t.qm })

/-- The rows that compute, with their opcodes and what they make of their operands. -/
def computeRows : List (Nat × (Eng → Instr) × (State → Eng → Start → Made)) :=
  [(0x20, .mma, prodMade), (0x21, .conv, prodMade), (0x22, .dwcv, prodMade), (0x23, .pool, plainMade), (0x24, .red, plainMade),
   (0x28, .vop, plainMade), (0x29, .act, plainMade), (0x30, .qscan, plainMade), (0x31, .qpack, packMade), (0x32, .qunpk, plainMade),
   (0x33, .rscl, plainMade)]

/-- What a compute command may change besides its outputs: its lane, the free values drawn, the saturation counters and their events, and
the scale cache where an output lies there. -/
abbrev ComputeFrame (s t : State) (x : Start) : Prop :=
  ((∀ o ∈ x.os, o.wr = true → ∀ k, o.ref ≠ .scc k) → t.scc = s.scc ∧ t.sccEcc = s.sccEcc) ∧
    t = { s with engs := t.engs, tim := t.tim, mem := t.mem, clay := t.clay, ecc := t.ecc, scc := t.scc, sccEcc := t.sccEcc,
                 freeK := t.freeK, sats := t.sats, satHit := t.satHit, qm := t.qm }

/-- A command that computes (12 R491 to R504), on operands that hold no error. Where none is a queue its result stands at O, its lane waits
for completion, and every byte outside its outputs reads as before, as the lane sees memory (12 R479); the scale cache changes only for an
output there. Where O alone is a queue with room, the result's items are appended to it; where A alone is one, its items are taken and
the result is that of the lane that holds them. -/
def Obligations.ComputedResultsAreStored : Prop :=
  ∀ r ∈ computeRows, ∀ e x s, Starts s e r.1 x → s.memOk → (e = .sce → x.l.wbuf = []) → operandEcc s e x.os = false →
    ((∀ o ∈ x.os, opdQueue x.en o = none) →
    ∃ t, exec (r.2.1 e) s = .next t ∧ LaneExecuted t e { x.l with adapt := (r.2.2 s e x).adapt } ∧ HeldBack s t e ∧
      (∀ k p, Ref.of x.c.o = .mem k → reach s e k (r.2.2 s e x).out.length true = some p →
        (∀ o ∈ x.os, o.wr = true → o.role ≠ .o → ∀ j, o.ref ≠ .mem j) →
        readBytes (viewOf t e) p (r.2.2 s e x).out.length = (r.2.2 s e x).out) ∧
      (∀ a, (∀ y ∈ (Role.o, (r.2.2 s e x).out) :: (r.2.2 s e x).side, ∀ o ∈ x.os, o.role = y.1 → ∀ k p, o.ref = .mem k →
        reach s e k y.2.length true = some p → a < p ∨ p + y.2.length ≤ a) → readByte (viewOf t e) a = readByte (viewOf s e) a) ∧
      ComputeFrame s t x) ∧
    (∀ oo q n, opdRole x.os .o = some oo → opdQueue x.en oo = some q → (∀ o ∈ x.os, o ≠ oo → opdQueue x.en o = none) →
      x.l.begun = false → (r.2.2 s e x).out.length = n * (qd s q).item → oo.qbytes = n * (qd s q).item → n ≤ qFree s q →
      q ≠ 16383 → RingInTsr (qd s q) →
      ∃ t, exec (r.2.1 e) s = .next t ∧ LaneExecuted t e { x.l with adapt := (r.2.2 s e x).adapt } ∧
        ItemsAppended s t q n (r.2.2 s e x).out ∧ ComputeFrame s t x) ∧
    (∀ oa q s1, opdRole x.os .a = some oa → opdQueue x.en oa = some q → (∀ o ∈ x.os, o ≠ oa → opdQueue x.en o = none) →
      x.l.begun = false → oa.qbytes ≤ (qd s q).vis * (qd s q).item → q ≠ 16383 →
      (∀ k < (qd s q).vis, eccHit s ((qd s q).addr ((qd s q).rp + k)) (qd s q).item = false) → s1 = (takeOpd s e x.en oa).1 →
      ∃ t l1, exec (r.2.1 e) s = .next t ∧ (engSt s1 e).cur = some l1 ∧
        l1.got .a = (NextItems s (qd s q) (qd s q).vis).take oa.qbytes ∧
        LaneExecuted t e { l1 with adapt := (r.2.2 s1 e { x with l := l1 }).adapt } ∧ HeldBack s t e ∧
        qd t q = (qd s q).consume (oa.qbytes / (qd s q).item) ∧
        (∀ k p, Ref.of x.c.o = .mem k → reach s e k (r.2.2 s1 e { x with l := l1 }).out.length true = some p →
          (∀ o ∈ x.os, o.wr = true → o.role ≠ .o → ∀ j, o.ref ≠ .mem j) →
          readBytes (viewOf t e) p (r.2.2 s1 e { x with l := l1 }).out.length = (r.2.2 s1 e { x with l := l1 }).out) ∧
        ComputeFrame s t x)

/-- Saturation counters (13 R557 to R561): a write of `SAT_CNT` sets the count, and where it lifts it from below a threshold to it, sets the
counter's bit of `SAT_HIT` and raises a saturation event (R560; the engine, job and offset that the event names are free values, log
102). A command of an engine and model that a counter is set for adds the events of its enabled kinds, stopping at the top.
Integer products are exact until one saturation to 32 bits at the end (13 R528 to R530): element `o` of the result is the sum over the
window of (A − ZA) × (B − ZB), padding contributing nothing, with the bias, clamped. -/
def Obligations.SaturationIsExactAndCounted : Prop :=
  (∀ (n : Fin 64) (v : Word) s, WinReaches (0x40330408 + 16 * n.val) s →
    ¬(0 < (satSt s n.val).thr.toNat ∧ (satSt s n.val).cnt.toNat < (satSt s n.val).thr.toNat ∧ (satSt s n.val).thr.toNat ≤ v.toNat) →
    exec (.satCntWrite n v) s = .next { s with sats := upd s.sats n.val (fun c => { c with cnt := v }) }) ∧
    (∀ (n : Fin 64) (v : Word) s, WinReaches (0x40330408 + 16 * n.val) s →
      0 < (satSt s n.val).thr.toNat → (satSt s n.val).cnt.toNat < (satSt s n.val).thr.toNat → (satSt s n.val).thr.toNat ≤ v.toNat →
      ∃ t e job off dt, exec (.satCntWrite n v) s = .next t ∧ t.sats = upd s.sats n.val (fun c => { c with cnt := v }) ∧
        t.satHit = s.satHit ||| BitVec.ofNat 64 (2 ^ n.val) ∧ EventKept t true (.saturation n.val e job off dt) ∧
        (∀ q, q ≠ 16383 → qd t q = qd s q) ∧ QdtMarks s t ∧
        t = { s with sats := t.sats, satHit := t.satHit, qm := t.qm, ecc := t.ecc, tim := t.tim, freeK := t.freeK }) ∧
    (∀ e m job off (kinds : List Nat) n s, s.wf → e ≠ .sce → n < 64 →
      (satSt (satAll s e m job off kinds) n).cnt.toNat =
        if satOn (satSt s n) e m then
          Nat.min 0xFFFFFFFF ((satSt s n).cnt.toNat + (kinds.filter (fun k => bit (satSt s n).cfg (8 + k))).length)
        else (satSt s n).cnt.toNat) ∧
    (∀ (p : Product) (fa fb : Nat) (a b : Codes) (za : Int) (zb bias : Nat → Int) (o : Nat), o < p.n →
    (prodInt p fa fb a b za zb bias).1[o]? = some (toTwos 32 (clampI (-2 ^ 31) (2 ^ 31 - 1)
      (bias (p.chan o) + ((List.range p.k).map (fun t =>
        match p.aAt o t with
        | some i => (intVal fa (a.at i) - za) * (intVal fb (b.at (p.bAt o t)) - zb (p.chan o))
        | none => 0)).sum))))

/-- Formats (12 R490, 13 R517 to R520): packed element codes read back as they were, but for the padding nibble; a finite float code
read and written again is itself, with no saturation. -/
def Obligations.ElementCodesSurvive : Prop :=
  (∀ (f : Nat) (pad : BitVec 4) (cs : List Nat), f ≤ 9 → (∀ c ∈ cs, c < 2 ^ fBits f) →
    (elems f (packElems f pad cs)).take cs.length = cs ∧ (packElems f pad cs).length = fBytes f cs.length) ∧
    (∀ (f c : Nat) (x : Flo), 6 ≤ f → f ≤ 9 → c < 2 ^ fBits f → readFloat f c = .num x false → dyFloat f x.dy x.neg = (c, []))

/-! ### Jobs and the ledger (chapter 14) -/

/-- A fresh lane of entry `i` stands on the engine of each lane of its image, or waits there (14 R576, 12 R474). -/
abbrev LanesDispatched (s t : State) (i : Nat) : Prop :=
  ∀ k x, (entryImg s (entrySt s i)).lanes[k]? = some x →
    (engSt t x.eng).cur = some (freshLane i k ((entryImg s (entrySt s i)).tsr.1 + x.off) x.ncmd) ∨
      freshLane i k ((entryImg s (entrySt s i)).tsr.1 + x.off) x.ncmd ∈ (engSt t x.eng).wait

/-- Every other entry stays, but one whose stall the change has made an order inversion: its attempt ends (14 R574). -/
abbrev OthersKept (s t : State) (i : Nat) : Prop :=
  ∀ j, j ≠ i → entrySt t j = entrySt s j ∨ (entrySt s j).st = .running ∧ (entrySt t j).st = .restarting

/-- The JOB objects of entry `i` are empty and zero (11 R426). -/
abbrev JobObjectsCleared (s t : State) (i : Nat) : Prop :=
  (∀ q, .jobQ q ∈ objsOf s (entrySt s i) → qd t q = { qd s q with wp := 0, pp := 0, rp := 0, fp := 0 }) ∧
    ∀ n, .jobC n ∈ objsOf s (entrySt s i) → scSt t n = { scSt s n with val := 0 }

/-- Admission (14 R567 to R571): the next descriptor in service takes the next entry, ADMITTED, or REJECTED with a record of the reason,
and is consumed; a job that owns its objects starts with every lane of its image dispatched and its JOB objects empty; a faulted one is
rolled back and starts again while its budget lasts, else it is FAILING, no engine standing in a lane of it (11 R426, 14 R576). Which of
several reasons a rejection records is the model's choice (log 78). -/
def Obligations.JobsAreAdmittedStartedAndRestarted : Prop :=
  (∀ s q p rest i ws, s.wf → s.ldg.service = (q, p) :: rest → (qd s q).cls = clsCmd → (qd s q).rp ≠ p → (qd s q).vis ≠ 0 →
    admissionRuns s = true → s.ldg.used < 256 → islRuns s 24 = true → itemsHeld s (qd s q) (qd s q).rp 1 = false →
    i = (s.ldg.head + s.ldg.used) % 256 → ws = descWords s q → rejectReason s ws = none →
    ∃ t, exec .jobAdmit s = .next t ∧ entrySt t i = entryOf s ws .admitted ∧ t.ldg.used = s.ldg.used + 1 ∧ t.ldg.head = s.ldg.head ∧
      t.ldg.seqNext = s.ldg.seqNext + 1 ∧ t.ldg.service = s.ldg.service ∧ qd t q = (qd s q).consume 1 ∧
      (∀ k, k ≠ q → qd t k = qd s k) ∧ OthersKept s t i ∧
      t = { s with ldg := t.ldg, qm := t.qm, engs := t.engs, flt := t.flt, tim := t.tim, cp := t.cp, pwr := t.pwr, slip0 := t.slip0,
                   slip1 := t.slip1, mem := t.mem, clay := t.clay, ecc := t.ecc }) ∧
    (∀ s q p rest i ws r, s.wf → s.ldg.service = (q, p) :: rest → (qd s q).cls = clsCmd → (qd s q).rp ≠ p → (qd s q).vis ≠ 0 →
      admissionRuns s = true → s.ldg.used < 256 → islRuns s 24 = true → itemsHeld s (qd s q) (qd s q).rp 1 = false →
      i = (s.ldg.head + s.ldg.used) % 256 → ws = descWords s q → rejectReason s ws = some r → s.flt.recs.length < 32 →
      ∃ t, exec .jobAdmit s = .next t ∧ entrySt t i = entryOf s ws .rejected ∧ t.ldg.used = s.ldg.used + 1 ∧
        qd t q = (qd s q).consume 1 ∧ (∀ k, k ≠ q → qd t k = qd s k) ∧ OthersKept s t i ∧
        (∃ more, t.flt.recs.map (fun x => (x.code, x.cas, x.jv, x.job)) =
          s.flt.recs.map (fun x => (x.code, x.cas, x.jv, x.job)) ++ (0x2A, BitVec.ofNat 8 r, true, (entryOf s ws .rejected).job) :: more) ∧
        t = { s with ldg := t.ldg, qm := t.qm, engs := t.engs, flt := t.flt, tim := t.tim, cp := t.cp, pwr := t.pwr, slip0 := t.slip0,
                     slip1 := t.slip1, mem := t.mem, clay := t.clay, ecc := t.ecc }) ∧
    (∀ (i : Fin 256) s, s.wf → (entrySt s i.val).st = .admitted → ownsAll s i.val = true → pdOn s 5 = true → islRuns s 21 = true →
      islRuns s 26 = true →
      ∃ t, exec (.jobStart i) s = .next t ∧
        entrySt t i.val = { entrySt s i.val with st := .running, started := true, fatal := false, doneLanes := [], defer := [] } ∧
        (∀ j, j ≠ i.val → entrySt t j = entrySt s j) ∧ LanesDispatched s t i.val ∧ JobObjectsCleared s t i.val ∧
        (∀ e l, (engSt s e).cur = some l → (engSt t e).cur = some l) ∧ QdtMarks s t ∧
        t = { s with ldg := t.ldg, engs := t.engs, qm := t.qm, scs := t.scs, ecc := t.ecc }) ∧
    (∀ (i : Fin 256) s, s.wf → (entrySt s i.val).st = .restarting → pdOn s 5 = true → islRuns s 21 = true → islRuns s 24 = true →
      islRuns s 26 = true →
      ∃ t, exec (.jobRestart i) s = .next t ∧
        (if (entrySt s i.val).restarts < (entrySt s i.val).budget ∧ (entrySt s i.val).fatal = false then
          entrySt t i.val = { entrySt s i.val with st := .running, restarts := (entrySt s i.val).restarts + 1, started := true,
                                                   fatal := false, doneLanes := [], defer := [] } ∧ LanesDispatched s t i.val
         else entrySt t i.val = { entrySt s i.val with st := .failing, doneLanes := [], defer := [] } ∧
          ∀ e ∈ loamEngs, (∀ l, (engSt s e).cur = some l → l.entry = i.val → l.stage = .abandon) →
            (∀ l ∈ (engSt s e).wait, l.entry ≠ i.val) → ∀ l, (engSt t e).cur = some l → l.entry ≠ i.val) ∧
        (∀ q, .prod q ∈ objsOf s (entrySt s i.val) → (qd t q).wp = (qd s q).pp ∧ (qd t q).pp = (qd s q).pp) ∧
        (∀ q, .cons q ∈ objsOf s (entrySt s i.val) → (qd t q).rp = (qd s q).fp ∧ (qd t q).fp = (qd s q).fp) ∧
        JobObjectsCleared s t i.val ∧ (∀ j, j ≠ i.val → entrySt t j = entrySt s j) ∧ QdtMarks s t ∧
        t = { s with ldg := t.ldg, engs := t.engs, qm := t.qm, scs := t.scs, ecc := t.ecc })

/-- Commit (11 R427, 14 R580 to R585): the head entry is freed in ledger order and counted. An OK job publishes what it wrote and releases
what it read, and its deferred additions take effect; a FAILED one publishes nothing and gives back what it read; a REJECTED one
changes no queue; but either releases `NREL` items of each bound TXN input port (R582). An egress queue gets a mark of the commit behind
the job's items (07 R304). `FLT_POP` discards the oldest record (14 R592). -/
def Obligations.TheHeadEntryCommits : Prop :=
  (∀ s e, s.wf → e = entrySt s s.ldg.head → 0 < s.ldg.used → pdOn s 9 = true → islRuns s 26 = true → islRuns s 24 = true →
    e.st = .done →
    ∃ t, exec .ledgerCommit s = .next t ∧ (entrySt t s.ldg.head).st = .free ∧ t.ldg.head = (s.ldg.head + 1) % 256 ∧
      t.ldg.used = s.ldg.used - 1 ∧ t.ldg.commits = s.ldg.commits + 1 ∧ t.ldg.lastStatus = 0 ∧ t.ldg.lastJob = e.job ∧
      t.ldg.lastRestarts = e.restarts ∧ (e.notify = true → t.cp.intStatus.getLsbD 6 = true) ∧ OthersKept s t s.ldg.head ∧
      (∀ q, .prod q ∈ objsOf s e → (qd t q).pp = (qd s q).wp ∧ (qd t q).wp = (qd s q).wp) ∧
      (∀ q, .cons q ∈ objsOf s e → (qd t q).fp = (qd s q).rp ∧ (qd t q).rp = (qd s q).rp) ∧
      (∀ q, .prod q ∉ objsOf s e → .cons q ∉ objsOf s e → qd t q = qd s q) ∧
      (∀ q ∈ egressQs s e, egressBound s q = true → ∃ rs n, runsOf t q = rs ++ [⟨e.job, n, some false⟩]) ∧
      (∀ n k, e.defer = [(n, k)] → (scSt s n).valid = true → scSt t n = { scSt s n with val := (scSt s n).val + BitVec.ofNat 32 k }) ∧
      (∀ n, n ∉ e.defer.map Prod.fst → scSt t n = scSt s n) ∧
      t = { s with ldg := t.ldg, qm := t.qm, scs := t.scs, engs := t.engs, flt := t.flt, tim := t.tim, cp := t.cp, pwr := t.pwr,
                   slip0 := t.slip0, slip1 := t.slip1, mem := t.mem, clay := t.clay, ecc := t.ecc }) ∧
    (∀ s e, s.wf → e = entrySt s s.ldg.head → 0 < s.ldg.used → pdOn s 9 = true → islRuns s 26 = true → islRuns s 24 = true →
      (e.st = .failing ∨ e.st = .rejected) →
      ∃ t, exec .ledgerCommit s = .next t ∧ (entrySt t s.ldg.head).st = .free ∧ t.ldg.head = (s.ldg.head + 1) % 256 ∧
        t.ldg.used = s.ldg.used - 1 ∧ t.ldg.commits = s.ldg.commits + 1 ∧ t.ldg.lastStatus = (if e.st = .failing then 1 else 2) ∧
        t.ldg.fails = (if e.st = .failing then satInc 0xFFFF s.ldg.fails else s.ldg.fails) ∧
        t.ldg.rejects = (if e.st = .failing then s.ldg.rejects else satInc 0xFFFF s.ldg.rejects) ∧ OthersKept s t s.ldg.head ∧
        (e.st = .failing → ∀ q, .prod q ∈ objsOf s e → (qd t q).wp = (qd s q).pp ∧ (qd t q).pp = (qd s q).pp) ∧
        (∀ b ∈ relPorts s e, (relPorts s e).countP (fun x => x.qid == b.qid) = 1 →
          (qd t b.qid).fp = (qd s b.qid).plus (qd s b.qid).fp (Nat.min b.nrel ((qd s b.qid).diff (qd s b.qid).pp (qd s b.qid).fp)) ∧
          (qd t b.qid).rp = (qd t b.qid).fp) ∧
        (e.st = .failing → ∀ q, .cons q ∈ objsOf s e → q ∉ (relPorts s e).map PortBind.qid →
          (qd t q).rp = (qd s q).fp ∧ (qd t q).fp = (qd s q).fp) ∧
        (e.st = .rejected → ∀ q, q ∉ (relPorts s e).map PortBind.qid → qd t q = qd s q) ∧
        (∀ q ∈ egressQs s e, egressBound s q = true → ∃ rs, runsOf t q = rs ++ [⟨e.job, 0, some true⟩]) ∧
        t = { s with ldg := t.ldg, qm := t.qm, scs := t.scs, engs := t.engs, flt := t.flt, tim := t.tim, cp := t.cp, pwr := t.pwr,
                     slip0 := t.slip0, slip1 := t.slip1, mem := t.mem, clay := t.clay, ecc := t.ecc }) ∧
    (∀ f (v : Word) s, Reaches f 0x91 v s → bit v 0 = true →
      ∃ t, exec (.fltPop f v) s = .next t ∧ t.flt = { s.flt with recs := s.flt.recs.drop 1 } ∧ t.cp = linkedTo s.cp 0x91 0 f.seq ∧
        t = { s with flt := t.flt, cp := t.cp, clk := t.clk, tim := t.tim })

/-! ### Loader (chapter 15) -/

/-- The slot of the install `i` is EMPTY; a silt image has none (15 R612). -/
abbrev SlotEmptied (s t : State) (i : Inst) : Prop :=
  if i.silt then t.cap.slots = s.cap.slots else (slotSt t i.model i.slotB).st = .empty

/-- The install has ended with a fault, which `CAP_STATUS` and one record tell (15 R616). -/
abbrev InstallFaulted (s t : State) (i : Inst) (f : LoadFault) : Prop :=
  t.cap.inst = none ∧ SlotEmptied s t i ∧ t.cap.iresult = (if f.code = 0x3F then 4 else 2) ∧ t.cap.icode = f.code ∧
    t.cap.icase = f.cas ∧
    t.flt.recs.map (fun r => (r.code, r.cas, r.isl, r.offset)) =
      s.flt.recs.map (fun r => (r.code, r.cas, r.isl, r.offset)) ++ [(f.code, f.cas, BitVec.ofNat 6 f.isl, BitVec.ofNat 32 f.offset)]

/-- INSTALL (15 R611 to R616, R628): while one is under way another is turned away with BUSY; a refusal is reported only; else the slot is
LOADING. It ends READY with the image's arbitration level and build when no check fails, and a silt image is then the classifier's model
(R625, R626); it ends EMPTY with a record of the first fault otherwise, of an error or another digest that pass 2 finds too, its regions
zeroed, and so does an abort, case 1 (R629), which zeroes them where the last steps had begun (log 34). -/
def Obligations.InstallsEndReadyOrEmpty : Prop :=
  (∀ f (v : Word) s, Reaches f 0x82 v s → bits v 31 28 = 1 → s.cap.inst.isSome = true →
    ∃ t, exec (.capInstall f v) s = .next t ∧ t.cp = linkedTo s.cp 0x82 4 f.seq ∧
      t = { s with cp := t.cp, clk := t.clk, tim := t.tim }) ∧
    (∀ f (v : Word) s k, Reaches f 0x82 v s → bits v 31 28 = 1 → s.cap.inst = none →
      installRefusal s (bits v 20 16) (bit v 8) = some k →
      ∃ t, exec (.capInstall f v) s = .next t ∧ t.cap = { s.cap with iresult := 3, icode := 0x3D, icase := k } ∧
        t.cp = linkedTo { s.cp with intStatus := s.cp.intStatus ||| 0x1000 } 0x82 0 f.seq ∧
        t = { s with cap := t.cap, cp := t.cp, clk := t.clk, tim := t.tim, slip0 := t.slip0, slip1 := t.slip1 }) ∧
    (∀ f (v : Word) s, s.wf → Reaches f 0x82 v s → bits v 31 28 = 1 → s.cap.inst = none →
      installRefusal s (bits v 20 16) (bit v 8) = none →
      ∃ t i, exec (.capInstall f v) s = .next t ∧ t.cap.inst = some i ∧ i.model = bits v 20 16 ∧ i.slotB = bit v 8 ∧
        i.silt = stagedSilt s ∧ (i.silt = false → (slotSt t i.model i.slotB).st = .loading) ∧ (i.silt = true → t.sce.loaded = false) ∧
        t.cp = linkedTo s.cp 0x82 0 f.seq ∧ QdtMarks s t ∧
        t = { s with cap := t.cap, sce := t.sce, qm := t.qm, scs := t.scs, ecc := t.ecc, cp := t.cp, clk := t.clk, tim := t.tim }) ∧
    (∀ s i p, s.wf → s.cap.inst = some i → loaderRuns s = true → i.fault = none → i.silt = false → i.model < 32 →
      eccHit s s.cap.addr.toNat s.cap.len.toNat = false → stagedDigest (staged s) = i.digest →
      loamPlan s (Xim.of (imageOf s (staged s) (CapHdr.of (staged s)))) = .ok p →
      ∃ t, exec .installComplete s = .next t ∧ t.cap.inst = none ∧ t.cap.iresult = 1 ∧
        slotSt t i.model i.slotB = { st := .ready, arb := (CapHdr.of (staged s)).arb, adv := (CapHdr.of (staged s)).adv,
                                     build := (CapHdr.of (staged s)).build, img := p.img } ∧
        t.mem = (writePlan s p).mem ∧ t.clay = (writePlan s p).clay ∧ t.scc = (writePlan s p).scc ∧
        t = { s with cap := t.cap, mem := t.mem, clay := t.clay, scc := t.scc, sccEcc := t.sccEcc, ecc := t.ecc, qm := t.qm,
                     scs := t.scs, cp := t.cp, slip0 := t.slip0, slip1 := t.slip1 }) ∧
    (∀ s i p base n tinf, s.cap.inst = some i → loaderRuns s = true → i.fault = none → i.silt = true →
      eccHit s s.cap.addr.toNat s.cap.len.toNat = false → stagedDigest (staged s) = i.digest →
      siltPlan s (Xim.of (imageOf s (staged s) (CapHdr.of (staged s)))) = .ok p → p.silt = some (base, n, tinf) →
      ∃ t, exec .installComplete s = .next t ∧ t.cap.inst = none ∧ t.cap.iresult = 1 ∧ t.cap.slots = s.cap.slots ∧
        t.sce = { s.sce with loaded := true, model := i.model, slot := i.slotB, tinf := tinf, cbase := base, ncmd := n, marks := 0 } ∧
        t.mem = (writePlan s p).mem ∧
        t = { s with cap := t.cap, sce := t.sce, mem := t.mem, clay := t.clay, scc := t.scc, sccEcc := t.sccEcc, ecc := t.ecc,
                     cp := t.cp, slip0 := t.slip0, slip1 := t.slip1 }) ∧
    (∀ s i lf, s.wf → s.cap.inst = some i → loaderRuns s = true → i.fault = some lf → s.flt.recs.length < 32 →
      ∃ t, exec .installComplete s = .next t ∧ InstallFaulted s t i lf ∧
        t = { s with cap := t.cap, flt := t.flt, tim := t.tim, cp := t.cp, pwr := t.pwr, slip0 := t.slip0, slip1 := t.slip1 }) ∧
    (∀ s i lf, s.wf → s.cap.inst = some i → loaderRuns s = true → i.fault = none → s.flt.recs.length < 32 →
      (eccHit s s.cap.addr.toNat s.cap.len.toNat = true ∧ lf = { code := 0x3F, cas := 3, offset := 0, qid := none, isl := 21 } ∨
        eccHit s s.cap.addr.toNat s.cap.len.toNat = false ∧ stagedDigest (staged s) ≠ i.digest ∧
          lf = { code := 0x31, cas := 4, offset := 0, qid := none, isl := 21 }) →
      ∃ t, exec .installComplete s = .next t ∧ InstallFaulted s t i lf ∧ t.mem = (wipeRegions s i.img).mem ∧
        t.clay = (wipeRegions s i.img).clay ∧ t.scc = (wipeRegions s i.img).scc ∧
        t = { s with cap := t.cap, flt := t.flt, mem := t.mem, clay := t.clay, scc := t.scc, sccEcc := t.sccEcc, ecc := t.ecc,
                     tim := t.tim, cp := t.cp, pwr := t.pwr, slip0 := t.slip0, slip1 := t.slip1 }) ∧
    (∀ f (v : Word) s i, s.wf → Reaches f 0x82 v s → bits v 31 28 = 4 → s.cap.inst = some i → s.flt.recs.length < 32 →
      ∃ t, exec (.capAbort f v) s = .next t ∧ t.cap.inst = none ∧ SlotEmptied s t i ∧ t.cap.iresult = 4 ∧
        t.cap.icode = 0x3F ∧ t.cap.icase = 1 ∧
        t.flt.recs.map (fun r => (r.code, r.cas)) = s.flt.recs.map (fun r => (r.code, r.cas)) ++ [(0x3F, 1)] ∧
        (t.mem = s.mem ∧ t.clay = s.clay ∧ t.scc = s.scc ∨ t.mem = (wipeRegions s i.img).mem ∧ t.clay = (wipeRegions s i.img).clay ∧
          t.scc = (wipeRegions s i.img).scc) ∧
        t = { s with cap := t.cap, flt := t.flt, mem := t.mem, clay := t.clay, scc := t.scc, sccEcc := t.sccEcc, ecc := t.ecc,
                     clk := t.clk, tim := t.tim, cp := t.cp, pwr := t.pwr, slip0 := t.slip0, slip1 := t.slip1 })

/-- SWAP and UNLOAD (15 R619 to R623): a swap that nothing refuses makes the slot active, at once, or after the anti-rollback fuses have
been blown to its level, a fuse that fails leaving the old slot active (R620); a refused one reports its case; meanwhile another swap or
unload is turned away with BUSY (R628); an unloaded slot is EMPTY and no longer active; a refused unload reports its case, the first that
holds (log 74). -/
def Obligations.SwapsActivateSlots : Prop :=
  (∀ f (v : Word) s, s.wf → Reaches f 0x82 v s → bits v 31 28 = 2 → s.cap.swap = none → swapRefusal s (bits v 20 16) (bit v 8) = none →
    swapBlows s (bits v 20 16) (bit v 8) = false →
    ∃ t, exec (.capSwap f v) s = .next t ∧ nth t.cap.active (bits v 20 16) none = some (bit v 8) ∧
      (∀ m, m ≠ bits v 20 16 → nth t.cap.active m none = nth s.cap.active m none) ∧
      t.cap = { s.cap with active := t.cap.active, sresult := 1, scase := 0 } ∧ t.cp = linkedTo s.cp 0x82 0 f.seq ∧
      t = { s with cap := t.cap, cp := t.cp, clk := t.clk, tim := t.tim }) ∧
    (∀ f (v : Word) s, Reaches f 0x82 v s → bits v 31 28 = 2 → s.cap.swap = none → swapRefusal s (bits v 20 16) (bit v 8) = none →
      swapBlows s (bits v 20 16) (bit v 8) = true →
      ∃ t, exec (.capSwap f v) s = .next t ∧ t.cap = { s.cap with swap := some (bits v 20 16, bit v 8) } ∧
        t.cp = linkedTo s.cp 0x82 0 f.seq ∧ t = { s with cap := t.cap, cp := t.cp, clk := t.clk, tim := t.tim }) ∧
    (∀ f (v : Word) s k, Reaches f 0x82 v s → bits v 31 28 = 2 → s.cap.swap = none → swapRefusal s (bits v 20 16) (bit v 8) = some k →
      ∃ t, exec (.capSwap f v) s = .next t ∧ t.cap = { s.cap with sresult := 2, scase := k } ∧
        t.cp = linkedTo s.cp 0x82 0 f.seq ∧ t = { s with cap := t.cap, cp := t.cp, clk := t.clk, tim := t.tim }) ∧
    (∀ f (v : Word) s c, (c = .capSwap f v ∧ bits v 31 28 = 2 ∨ c = .capUnload f v ∧ bits v 31 28 = 3) → Reaches f 0x82 v s →
      s.cap.swap.isSome = true →
      ∃ t, exec c s = .next t ∧ t.cp = linkedTo s.cp 0x82 4 f.seq ∧ t = { s with cp := t.cp, clk := t.clk, tim := t.tim }) ∧
    (∀ s m b, s.wf → s.cap.swap = some (m, b) → m < 32 → (slotSt s m b).arb ≤ 64 →
      ∃ t, exec (.swapEffect none) s = .next t ∧ nth t.cap.active m none = some b ∧ t.cap.swap = none ∧ t.cap.sresult = 1 ∧
        (∀ i < 64, t.fuses.rollback.getLsbD i = (s.fuses.rollback.getLsbD i || decide (i < (slotSt s m b).arb))) ∧
        t.fuses = { s.fuses with rollback := t.fuses.rollback } ∧ t = { s with cap := t.cap, fuses := t.fuses }) ∧
    (∀ s m b k, s.cap.swap = some (m, b) → k < (slotSt s m b).arb → k < 64 → s.fuses.rollback.getLsbD k = false →
      s.flt.recs.length < 32 →
      ∃ t, exec (.swapEffect (some k)) s = .next t ∧ t.cap = { s.cap with swap := none, sresult := 3, scase := 0 } ∧
        (∀ i < 64, t.fuses.rollback.getLsbD i = (s.fuses.rollback.getLsbD i || decide (i < k))) ∧
        t.fuses = { s.fuses with rollback := t.fuses.rollback } ∧
        t.flt.recs.map (fun r => (r.code, r.cas)) = s.flt.recs.map (fun r => (r.code, r.cas)) ++ [(0x3E, BitVec.ofNat 8 k)] ∧
        t = { s with cap := t.cap, fuses := t.fuses, flt := t.flt, tim := t.tim, cp := t.cp, pwr := t.pwr, slip0 := t.slip0,
                     slip1 := t.slip1 }) ∧
    (∀ f (v : Word) s, s.wf → Reaches f 0x82 v s → bits v 31 28 = 3 → s.cap.swap = none →
      slotRecorded s (bits v 20 16) (bit v 8) = false → (slotSt s (bits v 20 16) (bit v 8)).st = .ready →
      ∃ t, exec (.capUnload f v) s = .next t ∧ (slotSt t (bits v 20 16) (bit v 8)).st = .empty ∧
        nth t.cap.active (bits v 20 16) none ≠ some (bit v 8) ∧ t.cap.sresult = 1 ∧ t.cp = linkedTo s.cp 0x82 0 f.seq ∧ QdtMarks s t ∧
        t = { s with cap := t.cap, qm := t.qm, scs := t.scs, ecc := t.ecc, cp := t.cp, clk := t.clk, tim := t.tim }) ∧
    (∀ f (v : Word) s k, Reaches f 0x82 v s → bits v 31 28 = 3 → s.cap.swap = none →
      (slotRecorded s (bits v 20 16) (bit v 8) = true ∧ k = 2 ∨
        slotRecorded s (bits v 20 16) (bit v 8) = false ∧
          ((slotSt s (bits v 20 16) (bit v 8)).st = .loading ∧ k = 3 ∨ (slotSt s (bits v 20 16) (bit v 8)).st = .empty ∧ k = 7)) →
      ∃ t, exec (.capUnload f v) s = .next t ∧ t.cap = { s.cap with sresult := 2, scase := k } ∧
        t.cp = linkedTo s.cp 0x82 0 f.seq ∧ t = { s with cap := t.cap, cp := t.cp, clk := t.clk, tim := t.tim })

/-! ### Life cycle, keys, debug (chapter 16) -/

/-- The second write of a sequence: the key 0x93C1, with the fields that the first write named (16 R635). -/
abbrev Second (v : Word) (code : Nat) (s : State) : Prop :=
  lcKey v = 0x93C1 ∧ s.lc.first = some (lcFields v) ∧ lcCode v = code

/-- The addresses of a memory that wipes zero, where it lies in the address map (01 R39, 16 R638). -/
def wipedRange : WipeMem → Nat × Nat
  | .tsr => (0x10000000, 0x10800000)
  | .teLs => (0x18000000, 0x18100000)
  | .sce => (0x28000000, 0x28080000)
  | .sed => (0x20000000, 0x20200000)
  | .clay0 => (0x80000000, 0xA0000000)
  | .clay1 => (0xA0000000, 0xC0000000)
  | _ => (0, 0)

/-- A memory outside the address map is wiped; what a unit kept in one that is wiped is gone (16 R638, 05 R189). -/
def WipedUnit (m : WipeMem) (t : State) : Prop :=
  match m with
  | .qdt => t.qm.qdt = []
  | .scc => ∀ a < 0x10000, zget t.scc a = 0
  | .slp0 => t.slip0.replay = []
  | .slp1 => t.slip1.replay = []
  | .supRam => t.qm.evq = [] ∧ t.pwr.supEcc = false
  | .sce => t.sce.loaded = false
  | .sed => t.sed.written = many 3 0
  | .hpRules => t.hp.rules = many 64 0 ∧ t.hp.armed = false
  | _ => True

/-- Memory `m` has been wiped: its bytes, but those in which the empty open entries of the sediment stand, read zero and no word of it
holds an error; every other byte of memory stays. -/
abbrev Wiped (m : WipeMem) (s t : State) : Prop :=
  (∀ a, (wipedRange m).1 ≤ a → a < (wipedRange m).2 →
    (m = .sed → ∀ k ∈ strNums, a < sedOpenAddr k ∨ sedOpenAddr k + sedSize k ≤ a) → readByte t a = 0) ∧
    (∀ a ∈ t.ecc, a < (wipedRange m).1 ∨ (wipedRange m).2 ≤ a) ∧
    (s.memOk → ∀ a, a < (wipedRange m).1 ∨ (wipedRange m).2 ≤ a → readByte t a = readByte s a) ∧ WipedUnit m t

/-- The warm reset that ends a transition has begun (16 R637 T4, 05 R176, R208). -/
abbrev LifeReset (s t : State) : Prop :=
  t.pwr.seq = .warm 0 ∧ t.boot.cause = 0x12 ∧ t.boot.warmCnt = satInc 0xFF s.boot.warmCnt ∧
    ∀ i, 2 < i → i < 64 → islAbsent s i = false → (islSt t i).held = true

/-- Transitions (16 R635 to R640, 05 R191): the first key opens a sequence, which 100 ms or a write out of order end with case 6 (log 59); a
write with an operation code that is none changes nothing; the second key begins the transition, unless a condition refuses it with its
case: admission closes, every memory is to be wiped, every island but five is held in reset with its epoch advanced (log 57). A wiped
memory reads zero; an error on read-back writes a record; after the last wipe the fuses of the new state are blown, or after such an error
none is; a fuse that fails leaves those before it blown and writes a record (R654). Either way the block resets, after a success in the new
state. A wipe that a power-up or a warm reset began leaves zeros too (05 R189, R190), but that the rules, the sediment and the replay
buffers of a domain that powered up start empty. -/
def Obligations.TransitionsWipeBlowAndReset : Prop :=
  (∀ f (v : Word) s, Reaches f 0x81 v s → 1 ≤ lcCode v → lcCode v ≤ 3 → (lcCode v = 2 → life s ≠ .sealed) → s.lc.first = none →
    lcKey v = 0x6C3E →
    ∃ t, exec (.lcFirstKey f v) s = .next t ∧ t.lc = { s.lc with first := some (lcFields v) } ∧ t.cp = linkedTo s.cp 0x81 0 f.seq ∧
      t = { s with lc := t.lc, cp := t.cp, clk := t.clk, tim := t.tim }) ∧
    (∀ f (v : Word) s, Reaches f 0x81 v s → 1 ≤ lcCode v → lcCode v ≤ 3 → (lcCode v = 2 → life s ≠ .sealed) →
      (s.lc.first = none ∧ lcKey v ≠ 0x6C3E ∨ ∃ w, s.lc.first = some w ∧ (lcKey v ≠ 0x93C1 ∨ lcFields v ≠ w)) →
      ∃ t, exec (.lcFirstKey f v) s = .next t ∧ t.lc = { s.lc with first := none, result := 2, cas := 6 } ∧
        t.cp = linkedTo { s.cp with intStatus := s.cp.intStatus ||| 0x1000 } 0x81 0 f.seq ∧
        t = { s with lc := t.lc, cp := t.cp, clk := t.clk, tim := t.tim, slip0 := t.slip0, slip1 := t.slip1 }) ∧
    (∀ f (v : Word) s, Reaches f 0x81 v s → (lcCode v = 0 ∨ 3 < lcCode v) →
      ∃ t, exec (.lcFirstKey f v) s = .next t ∧ t.cp = linkedTo s.cp 0x81 0 f.seq ∧
        t = { s with cp := t.cp, clk := t.clk, tim := t.tim }) ∧
    (∀ s, s.lc.first.isSome = true →
      ∃ t, exec .lcKeyTimeout s = .next t ∧ t.lc = { s.lc with first := none, result := 2, cas := 6 } ∧
        t.cp = { s.cp with intStatus := s.cp.intStatus ||| 0x1000 } ∧
        t = { s with lc := t.lc, cp := t.cp, slip0 := t.slip0, slip1 := t.slip1 }) ∧
    (∀ f (v : Word) s c, Reaches f 0x81 v s → Second v 1 s → transitionRefusal s (lcTarget v) = some c →
      ∃ t, exec (.transition f v) s = .next t ∧ t.lc = { s.lc with first := none, result := 2, cas := c } ∧
        t.cp = linkedTo { s.cp with intStatus := s.cp.intStatus ||| 0x1000 } 0x81 0 f.seq ∧
        t = { s with lc := t.lc, cp := t.cp, clk := t.clk, tim := t.tim, slip0 := t.slip0, slip1 := t.slip1 }) ∧
    (∀ f (v : Word) s, Reaches f 0x81 v s → Second v 1 s → transitionRefusal s (lcTarget v) = none → s.isl.length = 64 →
      ∃ t, exec (.transition f v) s = .next t ∧ t.lc = { s.lc with first := none, op := .wiping (lcTarget v) false, cas := 0 } ∧
        t.pwr = { s.pwr with admission := false, supRdy := false } ∧ t.wiping = allWipes s ∧ t.outstanding = [] ∧
        t.ldg.entries = Ldg.reset.entries ∧ t.cap = Cap.reset ∧
        (∀ i < 64, islSt t i = if i ≤ 2 ∨ i = 57 ∨ i = 58 ∨ islAbsent s i = true then islSt s i
          else { islSt s i with epoch := (islSt s i).epoch + 1, held := true }) ∧
        t.cp = linkedTo s.cp 0x81 0 f.seq ∧
        t = { s with pwr := t.pwr, clk := t.clk, tim := t.tim, isl := t.isl, outstanding := t.outstanding, cp := t.cp, slip0 := t.slip0,
                     slip1 := t.slip1, sns := t.sns, iotXfer := t.iotXfer, iotCfg := t.iotCfg, sce := t.sce, sed := t.sed, qm := t.qm,
                     scs := t.scs, engs := t.engs, sats := t.sats, satHit := t.satHit, ldg := t.ldg, cap := t.cap, lc := t.lc,
                     jtag := t.jtag, csis := t.csis, mem := t.mem, ecc := t.ecc, wiping := t.wiping }) ∧
    (∀ m s tgt bad, s.wiping.contains m = true → s.lc.op = .wiping tgt bad → s.wiping.filter (· != m) ≠ [] →
      ∃ t, exec (.wipeDone m false) s = .next t ∧ t.wiping = s.wiping.filter (· != m) ∧ Wiped m s t ∧
        t = { s with wiping := t.wiping, mem := t.mem, clay := t.clay, clayZ0 := t.clayZ0, clayZ1 := t.clayZ1, scc := t.scc,
                     sccEcc := t.sccEcc, ecc := t.ecc, qm := t.qm, pwr := t.pwr, slip0 := t.slip0, slip1 := t.slip1, sce := t.sce,
                     sed := t.sed, hp := t.hp }) ∧
    (∀ m s tgt, s.wiping.contains m = true → s.lc.op = .wiping tgt false → s.wiping.filter (· != m) = [] →
      ∃ t, exec (.wipeDone m false) s = .next t ∧ t.wiping = [] ∧ Wiped m s t ∧ t.lc = { s.lc with op := .blowing tgt } ∧
        t = { s with wiping := t.wiping, lc := t.lc, mem := t.mem, clay := t.clay, clayZ0 := t.clayZ0, clayZ1 := t.clayZ1,
                     scc := t.scc, sccEcc := t.sccEcc, ecc := t.ecc, qm := t.qm, pwr := t.pwr, slip0 := t.slip0, slip1 := t.slip1,
                     sce := t.sce, sed := t.sed, hp := t.hp }) ∧
    (∀ m s tgt, s.wiping.contains m = true → s.lc.op = .wiping tgt false → s.wiping.filter (· != m) ≠ [] → s.flt.recs.length < 32 →
      ∃ t, exec (.wipeDone m true) s = .next t ∧ t.wiping = s.wiping.filter (· != m) ∧ Wiped m s t ∧
        t.lc = { s.lc with op := .wiping tgt true } ∧
        t.flt.recs.map (fun r => (r.code, r.cas)) = s.flt.recs.map (fun r => (r.code, r.cas)) ++ [(0x44, BitVec.ofNat 8 (wipeIsl m))] ∧
        t = { s with wiping := t.wiping, lc := t.lc, mem := t.mem, clay := t.clay, clayZ0 := t.clayZ0, clayZ1 := t.clayZ1,
                     scc := t.scc, sccEcc := t.sccEcc, ecc := t.ecc, qm := t.qm, pwr := t.pwr, slip0 := t.slip0, slip1 := t.slip1,
                     sce := t.sce, sed := t.sed, hp := t.hp, flt := t.flt, tim := t.tim, cp := t.cp }) ∧
    (∀ m s e tgt bad, s.wf → s.wiping.contains m = true → s.lc.op = .wiping tgt bad → (e || bad) = true →
      s.wiping.filter (· != m) = [] → s.pwr.st ≠ .off → s.boot.por = false →
      ∃ t, exec (.wipeDone m e) s = .next t ∧ t.fuses = s.fuses ∧ t.lc.op = .warm false ∧ t.boot.lcNow = s.boot.lcNow ∧ LifeReset s t) ∧
    (∀ m e s, s.wiping.contains m = true → (∀ tgt bad, s.lc.op ≠ .wiping tgt bad) →
      ∃ t, exec (.wipeDone m e) s = .next t ∧ t.wiping = s.wiping.filter (· != m) ∧ t.lc = s.lc ∧
        (if m = .hpRules ∨ m = .slp0 ∨ m = .slp1 then t = { s with wiping := t.wiping }
         else if m = .sed then t = { s with wiping := t.wiping, ecc := t.ecc } ∧ ∀ a ∈ t.ecc, a < 0x20000000 ∨ 0x20200000 ≤ a
         else Wiped m s t ∧
          t = { s with wiping := t.wiping, mem := t.mem, clay := t.clay, clayZ0 := t.clayZ0, clayZ1 := t.clayZ1, scc := t.scc,
                       sccEcc := t.sccEcc, ecc := t.ecc, qm := t.qm, pwr := t.pwr, sce := t.sce })) ∧
    (∀ s tgt, s.wf → s.lc.op = .blowing tgt → inOff s = false → s.boot.por = false →
      ∃ t, exec (.lcFusesBlown none) s = .next t ∧ t.fuses = ((lcBits tgt).filter (lcIntact s.fuses)).foldl lcBlow s.fuses ∧
        (∀ b ∈ lcBits tgt, lcIntact t.fuses b = false) ∧ t.lc.op = .warm true ∧ t.boot.lcNow = t.fuses.lcf ∧ LifeReset s t) ∧
    (∀ s tgt i b, s.wf → s.lc.op = .blowing tgt → ((lcBits tgt).filter (lcIntact s.fuses))[i]? = some b → s.pwr.st ≠ .off →
      s.boot.por = false → s.flt.recs.length < 32 →
      ∃ t, exec (.lcFusesBlown (some i)) s = .next t ∧
        t.fuses = (((lcBits tgt).filter (lcIntact s.fuses)).take i).foldl lcBlow s.fuses ∧ t.lc.op = .warm false ∧
        t.boot.lcNow = s.boot.lcNow ∧ LifeReset s t ∧
        t.flt.recs.map (fun r => (r.code, r.cas)) = s.flt.recs.map (fun r => (r.code, r.cas)) ++ [(0x40, if b = 3 then 2 else 1)])

/-- Keys (16 R641 to R647): KEYPROG is denied in SEALED and refused with a case, or without one where the slot is not empty or the source
not in TSR (log 39); else it reads the key from its source. A key that passes its check is blown and becomes valid; one that fails it
changes no fuse; a slot that does not read back has bits of the key only and is revoked; each failure writes a record; the source then
reads zero. KEYREVOKE blows REVOKE, but not of the last signing key in SEALED. -/
def Obligations.KeysAreProgrammedAndRevoked : Prop :=
  (∀ f (v : Word) s, Reaches f 0x81 v s → lcCode v = 2 → life s = .sealed →
    ∃ t, exec (.keyprog f v) s = .next t ∧ t.cp = linkedTo s.cp 0x81 5 f.seq ∧
      t = { s with cp := t.cp, clk := t.clk, tim := t.tim }) ∧
    (∀ f (v : Word) s c, Reaches f 0x81 v s → Second v 2 s → life s ≠ .sealed →
      (lcBusy s = some c ∨ lcBusy s = none ∧ keyprogBad s (lcEnc v) (lcIndex v) = true ∧ c = 0) →
      ∃ t, exec (.keyprog f v) s = .next t ∧ t.lc = { s.lc with first := none, result := 2, cas := c } ∧
        t.cp = linkedTo { s.cp with intStatus := s.cp.intStatus ||| 0x1000 } 0x81 0 f.seq ∧
        t = { s with lc := t.lc, cp := t.cp, clk := t.clk, tim := t.tim, slip0 := t.slip0, slip1 := t.slip1 }) ∧
    (∀ f (v : Word) s, Reaches f 0x81 v s → Second v 2 s → life s ≠ .sealed → lcBusy s = none →
      keyprogBad s (lcEnc v) (lcIndex v) = false →
      ∃ t bs, exec (.keyprog f v) s = .next t ∧ bs = readBytes s s.lc.ksrc.toNat (if lcEnc v then 32 else 64) ∧
        t.lc = { s.lc with first := none, cas := 0,
                           op := .keyprog (lcEnc v) (lcIndex v) (keyCheck (lcEnc v) bs) (BitVec.ofNat 512 (fromBe bs)) } ∧
        t.cp = linkedTo s.cp 0x81 0 f.seq ∧ t = { s with lc := t.lc, cp := t.cp, clk := t.clk, tim := t.tim }) ∧
    (∀ s enc i k, s.memOk → s.lc.op = .keyprog enc i true k → s.fuses.sig.length = 4 → s.fuses.enc.length = 4 → i < 4 →
      0x10000000 ≤ s.lc.ksrc.toNat → s.lc.ksrc.toNat + 64 ≤ 0x10800000 →
      ∃ t, exec (.keyprogDone .good) s = .next t ∧ keySlot t enc i = { keySlot s enc i with bits := k, valid := true } ∧
        (∀ e j, (e, j) ≠ (enc, i) → keySlot t e j = keySlot s e j) ∧ t.lc = { s.lc with op := .none, result := 1, cas := 0 } ∧
        (∀ a, readByte t a = if s.lc.ksrc.toNat ≤ a ∧ a < s.lc.ksrc.toNat + (if enc then 32 else 64) then 0 else readByte s a) ∧
        t.cp = { s.cp with intStatus := s.cp.intStatus ||| 0x1000 } ∧
        t = { s with fuses := t.fuses, lc := t.lc, mem := t.mem, ecc := t.ecc, cp := t.cp, slip0 := t.slip0, slip1 := t.slip1 }) ∧
    (∀ e s enc i k, s.memOk → s.lc.op = .keyprog enc i false k → s.flt.recs.length < 32 → 0x10000000 ≤ s.lc.ksrc.toNat →
      s.lc.ksrc.toNat + 64 ≤ 0x10800000 →
      ∃ t, exec (.keyprogDone e) s = .next t ∧ t.lc = { s.lc with op := .none, result := 3, cas := 0 } ∧
        t.flt.recs.map (fun r => (r.code, r.cas)) =
          s.flt.recs.map (fun r => (r.code, r.cas)) ++ [(0x42, if enc then 2 else 1)] ∧
        (∀ a, readByte t a = if s.lc.ksrc.toNat ≤ a ∧ a < s.lc.ksrc.toNat + (if enc then 32 else 64) then 0 else readByte s a) ∧
        t = { s with lc := t.lc, mem := t.mem, ecc := t.ecc, flt := t.flt, tim := t.tim, cp := t.cp, pwr := t.pwr, slip0 := t.slip0,
                     slip1 := t.slip1 }) ∧
    (∀ s enc i k, s.memOk → s.lc.op = .keyprog enc i true k → s.fuses.sig.length = 4 → s.fuses.enc.length = 4 → i < 4 →
      s.flt.recs.length < 32 → 0x10000000 ≤ s.lc.ksrc.toNat → s.lc.ksrc.toNat + 64 ≤ 0x10800000 →
      ∃ t, exec (.keyprogDone .mismatch) s = .next t ∧
        keySlot t enc i = { keySlot s enc i with bits := (keySlot t enc i).bits, revoked := true } ∧
        (keySlot t enc i).bits &&& k = (keySlot t enc i).bits ∧
        (∀ e j, (e, j) ≠ (enc, i) → keySlot t e j = keySlot s e j) ∧ t.lc = { s.lc with op := .none, result := 3, cas := 0 } ∧
        t.flt.recs.map (fun r => (r.code, r.cas)) =
          s.flt.recs.map (fun r => (r.code, r.cas)) ++ [(0x43, BitVec.ofNat 8 (i + (if enc then 16 else 0)))] ∧
        (∀ a, readByte t a = if s.lc.ksrc.toNat ≤ a ∧ a < s.lc.ksrc.toNat + (if enc then 32 else 64) then 0 else readByte s a) ∧
        t = { s with fuses := t.fuses, freeK := t.freeK, lc := t.lc, mem := t.mem, ecc := t.ecc, flt := t.flt, tim := t.tim, cp := t.cp,
                     pwr := t.pwr, slip0 := t.slip0, slip1 := t.slip1 }) ∧
    (∀ f (v : Word) s, Reaches f 0x81 v s → Second v 3 s → lcBusy s = none → lcArmed s = none → s.fuses.sig.length = 4 →
      s.fuses.enc.length = 4 →
      ∃ t, exec (.keyrevoke f v) s = .next t ∧
        (if lastKey s (lcEnc v) (lcIndex v) then t.fuses = s.fuses ∧ t.lc = { s.lc with first := none, result := 2, cas := 5 }
         else keySlot t (lcEnc v) (lcIndex v) = { keySlot s (lcEnc v) (lcIndex v) with revoked := true } ∧
          (∀ e j, (e, j) ≠ (lcEnc v, lcIndex v) → keySlot t e j = keySlot s e j) ∧
          t.lc = { s.lc with first := none, op := .none, result := 1, cas := 0 }) ∧
        t.cp = linkedTo { s.cp with intStatus := s.cp.intStatus ||| 0x1000 } 0x81 0 f.seq ∧
        t = { s with fuses := t.fuses, lc := t.lc, cp := t.cp, clk := t.clk, tim := t.tim, slip0 := t.slip0, slip1 := t.slip1 }) ∧
    (∀ f (v : Word) s c, Reaches f 0x81 v s → Second v 3 s → (lcBusy s = some c ∨ lcBusy s = none ∧ lcArmed s = some c) →
      ∃ t, exec (.keyrevoke f v) s = .next t ∧ t.lc = { s.lc with first := none, result := 2, cas := c } ∧
        t.cp = linkedTo { s.cp with intStatus := s.cp.intStatus ||| 0x1000 } 0x81 0 f.seq ∧
        t = { s with lc := t.lc, cp := t.cp, clk := t.clk, tim := t.tim, slip0 := t.slip0, slip1 := t.slip1 })

/-- Debug (16 R649 to R653): `DBG_CTRL` takes its two keys; an instruction that is not permitted acts as BYPASS and is counted; IDCODE
captures 0x4F58_0B05, EXTEST drives its cells but those that only observe and those of balls with no connection, SAMPLE/PRELOAD loads
them, DBGACC starts an access that ends with data and status, a store of which changes four bytes. DBG_TRST_N low selects IDCODE and
drives nothing, high frees the port; during power-on reset only its level is noted (02 R76).
ROM patches (16 R633, R634), in manufacturing test mode only: a record is read, or its programming starts in an empty slot; it then
reads back and becomes valid, or a mismatch leaves it invalid. -/
def Obligations.TestAccessAndPatchesAreGuarded : Prop :=
  (∀ f (v : Word) s, Reaches f 0x87 v s → bits v 31 16 = 0xDB6E →
    ∃ t, exec (.dbgEnable f v) s = .next t ∧ t.lc = { s.lc with dbgEn := true, dbgExtest := bit v 1 } ∧
      t.cp = linkedTo s.cp 0x87 0 f.seq ∧ t = { s with lc := t.lc, cp := t.cp, clk := t.clk, tim := t.tim }) ∧
    (∀ f (v : Word) s, Reaches f 0x87 v s → bits v 31 16 = 0xDB00 →
      ∃ t, exec (.dbgDisable f v) s = .next t ∧ t.lc = { s.lc with dbgEn := false, dbgExtest := false } ∧
        t.cp = linkedTo s.cp 0x87 0 f.seq ∧ t = { s with lc := t.lc, cp := t.cp, clk := t.clk, tim := t.tim }) ∧
    (∀ s, tapAnswers s = true →
      exec .idcode s = .next { s with jtag := { s.jtag with ir := 2, dr := 0x4F580B05, driven := [] } }) ∧
    (∀ (code : BitVec 4) s, tapAnswers s = true → tapPermits s code.toNat = true →
      exec (.bypass code) s = .next { s with
        jtag := { s.jtag with ir := code, dr := 0, driven := if code = 0 then s.jtag.driven else [] } }) ∧
    (∀ (code : BitVec 4) s, tapAnswers s = true → tapPermits s code.toNat = false →
      exec (.bypass code) s = .next { s with
        jtag := { s.jtag with ir := 15, dr := 0, driven := [] },
        lc := { s.lc with dbgDeny := satInc 0xFF s.lc.dbgDeny } }) ∧
    (∀ cells s, Instr.wf (.extest cells) = true → tapAnswers s = true →
      exec (.extest cells) s = .next (if tapPermits s 0 then
          { s with jtag := { s.jtag with ir := 0, scanK := s.jtag.scanK + 1,
                                         driven := cells.filter (fun c => cellThere s c && !observeOnly c) } }
        else { s with jtag := { s.jtag with ir := 15, driven := [] },
                      lc := { s.lc with dbgDeny := satInc 0xFF s.lc.dbgDeny } })) ∧
    (∀ cells s, Instr.wf (.samplePreload cells) = true → tapAnswers s = true →
      exec (.samplePreload cells) s = .next (if tapPermits s 1 then
          { s with jtag := { s.jtag with ir := 1, scanK := s.jtag.scanK + 1, preload := cells.filter (cellThere s), driven := [] } }
        else { s with jtag := { s.jtag with ir := 15, driven := [] },
                      lc := { s.lc with dbgDeny := satInc 0xFF s.lc.dbgDeny } })) ∧
    (∀ (dr : BitVec 69) s, tapAnswers s = true → tapPermits s 3 = false →
      exec (.dbgacc dr) s = .next { s with jtag := { s.jtag with ir := 15, driven := [] },
                                           lc := { s.lc with dbgDeny := satInc 0xFF s.lc.dbgDeny } }) ∧
    (∀ (dr : BitVec 69) s, tapAnswers s = true → tapPermits s 3 = true → s.jtag.acc = none → (bits dr 68 67 = 1 ∨ bits dr 68 67 = 2) →
      ∃ t, exec (.dbgacc dr) s = .next t ∧
        t.jtag.acc = some (bits dr 68 67 == 2, BitVec.ofNat 32 (bits dr 66 37 * 4), BitVec.ofNat 32 (bits dr 34 3)) ∧
        t.jtag.dr.toNat = s.jtag.accData.toNat * 8 + s.jtag.accStat.toNat ∧ t.jtag.ir = 3 ∧ t = { s with jtag := t.jtag }) ∧
    (∀ s a (v : Word), s.jtag.acc = some (false, a, v) → winWaits s a.toNat false (lateNow s a.toNat) = false →
      exec .dbgaccDone s = .next { s with jtag := { s.jtag with
        acc := none, accStat := BitVec.ofNat 3 (winStatus s a.toNat false (lateNow s a.toNat)),
        accData := if winStatus s a.toNat false (lateNow s a.toNat) = stOk then winData s a.toNat else 0 } }) ∧
    (∀ s a (v : Word), s.memOk → s.jtag.acc = some (true, a, v) → winWaits s a.toNat true (lateNow s a.toNat) = false →
      winStatus s a.toNat true (lateNow s a.toNat) = stOk →
      (0x10000000 ≤ a.toNat ∧ a.toNat < 0x40000000 ∨ isClay a.toNat = true ∧ isClay (a.toNat + 3) = true) →
      ∃ t, exec .dbgaccDone s = .next t ∧ t.jtag = { s.jtag with acc := none, accData := 0, accStat := 0 } ∧
        ((∀ k < 4, sceReserved (a.toNat + k) = false) → readWord t a.toNat = v) ∧
        (∀ b, b < a.toNat ∨ a.toNat + 4 ≤ b → readByte t b = readByte s b) ∧
        t = { s with jtag := t.jtag, mem := t.mem, clay := t.clay, ecc := t.ecc }) ∧
    (∀ s a (v : Word) st, s.jtag.acc = some (true, a, v) → winWaits s a.toNat true (lateNow s a.toNat) = false →
      winStatus s a.toNat true (lateNow s a.toNat) = st → st ≠ stOk →
      exec .dbgaccDone s = .next { s with jtag := { s.jtag with acc := none, accData := 0, accStat := BitVec.ofNat 3 st } }) ∧
    (∀ low s, exec (.testAccessPortReset low) s = .next { s with
      jtag := if low = true ∧ s.boot.por = false then { s.jtag with trst := true, ir := 2, dr := 0, preload := [], driven := [] }
        else { s.jtag with trst := low } }) ∧
    (∀ (dr : BitVec 106) s, tapAnswers s = true → s.boot.mfg = false →
    exec (.patchprog dr) s = .next { s with
      jtag := { s.jtag with ir := 15, driven := [] }, lc := { s.lc with dbgDeny := satInc 0xFF s.lc.dbgDeny } }) ∧
    (∀ (dr : BitVec 106) s, tapAnswers s = true → s.boot.mfg = true → s.jtag.patch = none → bits dr 105 104 = 1 →
      ∃ t, exec (.patchprog dr) s = .next t ∧ t.jtag.patchData = (nth s.fuses.patch (bits dr 103 99) ⟨0, false⟩).bits ∧
        t.jtag.patchStat = 0 ∧ t.jtag.patch = none ∧ t = { s with jtag := t.jtag }) ∧
    (∀ (dr : BitVec 106) s, tapAnswers s = true → s.boot.mfg = true → s.jtag.patch = none → bits dr 105 104 = 2 →
      ∃ t, exec (.patchprog dr) s = .next t ∧
        (if nth s.fuses.patch (bits dr 103 99) ⟨0, false⟩ = ⟨0, false⟩ then
          t.jtag.patch = some (bits dr 103 99, BitVec.ofNat 96 (bits dr 98 3)) ∧ t.jtag.patchStat = 4
         else t.jtag.patch = none ∧ t.jtag.patchStat = 1) ∧
        t = { s with jtag := t.jtag }) ∧
    (∀ s i (r : BitVec 96), s.jtag.patch = some (i, r) → i < s.fuses.patch.length →
      ∃ t, exec (.patchprogDone .good) s = .next t ∧ nth t.fuses.patch i ⟨0, false⟩ = ⟨r, true⟩ ∧
        (∀ j, j ≠ i → nth t.fuses.patch j ⟨0, false⟩ = nth s.fuses.patch j ⟨0, false⟩) ∧
        t.fuses = { s.fuses with patch := t.fuses.patch } ∧
        t.jtag = { s.jtag with patch := none, patchData := r, patchStat := 0 } ∧ t = { s with fuses := t.fuses, jtag := t.jtag }) ∧
    (∀ s i (r : BitVec 96), s.jtag.patch = some (i, r) → i < s.fuses.patch.length →
      ∃ t, exec (.patchprogDone .mismatch) s = .next t ∧ (nth t.fuses.patch i ⟨0, true⟩).valid = false ∧ t.jtag.patch = none ∧
        (∀ j, j ≠ i → nth t.fuses.patch j ⟨0, false⟩ = nth s.fuses.patch j ⟨0, false⟩) ∧
        t.fuses = { s.fuses with patch := t.fuses.patch } ∧
        t.jtag.patchStat = 2 ∧ t = { s with fuses := t.fuses, jtag := t.jtag, freeK := t.freeK })

/-! ### Tiles and CSI-2 (chapter 17) -/

/-- Tile links (17 R657 to R663): a trained link is UP; a replay is counted; a request starts a retrain, or waits for 10 ms after the last
one or for UP, where a link that was retrained before makes it wait 10 ms (log 32); a recovery faults the job of every lane whose transfer
is in flight and retrains; one that follows another too soon, or a retrain that takes too long, fails the tile: absent, its domain off, its
island held, a record written (R669). -/
def Obligations.TileLinksTrainAndFail : Prop :=
  (∀ x s, linkLive s x = true → (tileSt s x).link = .training → s.clk.relock1 = false → (tileSt s x).req = false →
    exec (.linkTrained x) s = .next (updTile s x (fun y => { y with link := .up }))) ∧
    (∀ x s, linkLive s x = true → (tileSt s x).link = .training → s.clk.relock1 = false → (tileSt s x).req = true →
      exec (.linkTrained x) s = .next (updTile s x (fun y =>
        if (tileSt s x).count = 0 then { y with link := .retrain, recovery := false, req := false, defer := false, count := satInc 0xFFFF y.count }
        else { y with link := .up, defer := true }))) ∧
    (∀ x s, linkLive s x = true → (tileSt s x).link = .up →
      exec (.beatCrcError x) s = .next (updTile s x (fun y => { y with replays := satInc 0xFF y.replays }))) ∧
    (∀ f t1 (v : Word) recent s, s.wf → Reaches f (if t1 then 0xB2 else 0xB1) v s → bit v 31 = true →
      (tileSt s (if t1 then .t1 else .t0)).req = false →
      ∃ t, exec (.tileRetrainReq f t1 v recent) s = .next t ∧
        tileSt t (if t1 then .t1 else .t0) =
          (if (tileSt s (if t1 then .t1 else .t0)).link ≠ .up then { tileSt s (if t1 then .t1 else .t0) with req := true }
           else if recent then { tileSt s (if t1 then .t1 else .t0) with req := true, defer := true }
           else { tileSt s (if t1 then .t1 else .t0) with
             link := .retrain, recovery := false, defer := false, count := satInc 0xFFFF (tileSt s (if t1 then .t1 else .t0)).count }) ∧
        (∀ y, y ≠ (if t1 then Tile.t1 else .t0) → tileSt t y = tileSt s y) ∧
        t.cp = linkedTo s.cp (if t1 then 0xB2 else 0xB1) 0 f.seq ∧
        t = { s with tiles := t.tiles, cp := t.cp, clk := t.clk, tim := t.tim }) ∧
    (∀ x s, linkLive s x = true → (tileSt s x).defer = true → (tileSt s x).link = .up →
      exec (.retrainDeferExpiry x) s = .next (updTile s x (fun y =>
        { y with link := .retrain, recovery := false, req := false, defer := false, count := satInc 0xFFFF y.count }))) ∧
    (∀ x k s, linkLive s x = true → (tileSt s x).link = .up → (∀ e ∈ loamEngs, (engSt s e).cur = none) → s.outstanding = [] →
      hostAccess s (fun a => tileOf a == some x) = false → x ≠ .io →
      exec (.linkRecovery x k false) s = .next (updTile (instant s) x (fun y =>
        { y with link := .retrain, recovery := true, count := satInc 0xFFFF y.count }))) ∧
    (∀ k s, s.wf → linkLive s .io = true → (tileSt s .io).link = .up → (∀ e ∈ loamEngs, (engSt s e).cur = none) → s.outstanding = [] →
      ∃ t, exec (.linkRecovery .io k false) s = .next t ∧
        tileSt t .io = { tileSt s .io with link := .retrain, recovery := true, count := satInc 0xFFFF (tileSt s .io).count } ∧
        (∀ r, ∀ f ∈ filters, openFrame (csiSt t r) f = none) ∧ QdtMarks s t ∧
        t = { s with tiles := t.tiles, csis := t.csis, qm := t.qm, ecc := t.ecc, tim := t.tim }) ∧
    (∀ x k e l s, s.wf → linkLive s x = true → (tileSt s x).link = .up → e ∈ loamEngs → (engSt s e).cur = some l → l.stage ≠ .abandon →
      movesTile s x e = true → (entrySt s l.entry).st = .running →
      ∃ t, exec (.linkRecovery x k false) s = .next t ∧ (entrySt t l.entry).st = .restarting ∧ (tileSt t x).link = .retrain ∧
        (tileSt t x).recovery = true) ∧
    (∀ x k s, s.wf → linkLive s x = true → (tileSt s x).link = .up → s.flt.recs.length < 32 →
      ∃ t, exec (.linkRecovery x k true) s = .next t ∧ (tileSt t x).failed = true ∧ tilePresent t x = false ∧
        pdLevel t (tilePd x) = .off ∧ (islSt t (tileIsl x)).held = true ∧
        ((0x4A, BitVec.ofNat 8 (tileIx x)) : Byte × Byte) ∈ t.flt.recs.map (fun r => (r.code, r.cas)) ∧ t.boot = s.boot ∧
        t.fuses = s.fuses ∧ ((∀ e ∈ loamEngs, (engSt s e).cur = none) → s.cap.inst = none → t.mem = s.mem)) ∧
    (∀ x s, linkLive s x = true → (tileSt s x).link = .retrain →
      exec (.retrainDone x) s = .next (updTile s x (fun y => { y with link := .up, recovery := false, defer := y.req }))) ∧
    (∀ x s, s.wf → linkLive s x = true → (tileSt s x).link = .retrain → s.flt.recs.length < 32 →
      ∃ t, exec (.retrainTimeout x) s = .next t ∧ (tileSt t x).failed = true ∧ tilePresent t x = false ∧
        pdLevel t (tilePd x) = .off ∧ (islSt t (tileIsl x)).held = true ∧
        ((0x49, BitVec.ofNat 8 (tileIx x)) : Byte × Byte) ∈ t.flt.recs.map (fun r => (r.code, r.cas)) ∧ t.boot = s.boot ∧
        t.fuses = s.fuses ∧ ((∀ e ∈ loamEngs, (engSt s e).cur = none) → s.cap.inst = none → t.mem = s.mem))

/-- CSI-2 receivers (17 R674 to R681): enabling clears the counts; a filter is set valid while the receiver is disabled and only with a
legal setting; a frame start reserves the frame's items or is counted as NOSPACE, and fails a frame that is open still; a line of the filter's length goes behind the items
written, unpublished; a frame end publishes a whole frame and takes back any other; in ULPS nothing is seen. -/
def Obligations.CsiFramesAreWholeOrGone : Prop :=
  (∀ r (v : Word) s, WinReaches (0x403E0400 + csiIx r * 0x80) s → bit (csiSt s r).ctrl 0 = false → bit v 0 = true →
    exec (.csiEnable r v) s = .next (updCsi s r (fun c =>
      { c with ctrl := v &&& 3, hdrerr := 0, crcerr := 0, nospace := 0, badfrm := 0 }))) ∧
    (∀ r (fl : Fin 4) (v : Word) s, WinReaches (0x403E0410 + csiIx r * 0x80 + 8 * fl.val) s → bit (csiSt s r).ctrl 0 = false →
      exec (.csiFilterWrite r fl v) s = .next (
        if bit v 31 && !filterOk s (v &&& 0xFFC03FFF) (filtW1 (csiSt s r) fl.val) then s
        else updCsi s r (fun c => { c with f0 := upd c.f0 fl.val (fun _ => v &&& 0xFFC03FFF) }))) ∧
    (∀ r (fl : Fin 4) (v : Word) s, WinReaches (0x403E0410 + csiIx r * 0x80 + 8 * fl.val) s → bit (csiSt s r).ctrl 0 = true →
      exec (.csiFilterWrite r fl v) s = .next s) ∧
    (∀ r (vc : BitVec 2) (fnum : BitVec 16) s f, s.wf → csiSees s r = true →
      filters.filter (fun k => filtVc (csiSt s r) k vc) = [f] → openFrame (csiSt s r) f = none →
      ∃ t, exec (.csiFrameStart r vc fnum) s = .next t ∧
        csiSt t r = (if csiShut s || (qd s (filtQid (csiSt s r) f)).cls != clsSrc ||
              decide (qFree s (filtQid (csiSt s r) f) < filtLines (csiSt s r) f * filtBytes (csiSt s r) f / (qd s (filtQid (csiSt s r) f)).item)
            then { csiSt s r with nospace := satInc 0xFF (csiSt s r).nospace }
            else { csiSt s r with open_ := upd (csiSt s r).open_ f (fun _ => some
              ⟨fnum, now (instant s), 0, (tileSt s .io).link == .retrain, [],
                filtLines (csiSt s r) f * filtBytes (csiSt s r) f / (qd s (filtQid (csiSt s r) f)).item⟩) }) ∧
        t = { s with csis := t.csis, tim := t.tim }) ∧
    (∀ r (vc : BitVec 2) (fnum : BitVec 16) s f fr q, s.wf → csiSees s r = true →
      filters.filter (fun k => filtVc (csiSt s r) k vc) = [f] → openFrame (csiSt s r) f = some fr → q = filtQid (csiSt s r) f →
      (qd s q).cls = clsSrc →
      ∃ t, exec (.csiFrameStart r vc fnum) s = .next t ∧ (csiSt t r).badfrm = satInc 0xFF (csiSt s r).badfrm ∧
        qd t q = { qd s q with wp := (qd s q).pp } ∧ (csiShut s = true → openFrame (csiSt t r) f = none) ∧ QdtMarks s t ∧
        t = { s with csis := t.csis, qm := t.qm, ecc := t.ecc, tim := t.tim }) ∧
    (∀ r (pk : CsiPacket) s f fr q n, s.wf → s.memOk → Instr.wf (.csiLine r pk) = true → csiSees s r = true → pk.headerTwoBit = false →
      pk.vcx = false → pk.crcOk = true →
      filters.find? (fun k => filtVc (csiSt s r) k pk.vc && bits (filtW0 (csiSt s r) k) 27 22 == pk.dt.toNat) = some f →
      openFrame (csiSt s r) f = some fr → fr.lines < filtLines (csiSt s r) f →
      (storedLine (filtW0 (csiSt s r) f) pk.payload).length = filtBytes (csiSt s r) f → q = filtQid (csiSt s r) f →
      (qd s q).cls = clsSrc → (qd s q).scope = scTxn → (qd s q).ovf = false → RingInTsr (qd s q) →
      n = (fr.bytes ++ storedLine (filtW0 (csiSt s r) f) pk.payload).length / (qd s q).item → n ≤ (qd s q).depth →
      ∃ t, exec (.csiLine r pk) s = .next t ∧ (0 < n → (qd t q).wp = (qd s q).plus (qd s q).wp n) ∧ (qd t q).pp = (qd s q).pp ∧
        (qd t q).rp = (qd s q).rp ∧ (qd t q).fp = (qd s q).fp ∧
        (∀ k < n, readBytes t ((qd s q).addr ((qd s q).wp + k)) (qd s q).item =
          ((fr.bytes ++ storedLine (filtW0 (csiSt s r) f) pk.payload).drop (k * (qd s q).item)).take (qd s q).item) ∧
        (∀ a, (∀ k < n, a < (qd s q).addr ((qd s q).wp + k) ∨ (qd s q).addr ((qd s q).wp + k) + (qd s q).item ≤ a) →
          readByte t a = readByte s a) ∧
        openFrame (csiSt t r) f = some { fr with
          lines := fr.lines + 1, bytes := (fr.bytes ++ storedLine (filtW0 (csiSt s r) f) pk.payload).drop (n * (qd s q).item),
          items := fr.items - n } ∧ QdtOrItems s t q n ∧
        t = { s with csis := t.csis, qm := t.qm, mem := t.mem, ecc := t.ecc }) ∧
    (∀ r (vc : BitVec 2) s f fr q, s.wf → csiSees s r = true → filters.filter (fun k => filtVc (csiSt s r) k vc) = [f] →
      openFrame (csiSt s r) f = some fr → q = filtQid (csiSt s r) f → (qd s q).cls = clsSrc →
      ∃ t, exec (.csiFrameEnd r vc) s = .next t ∧ openFrame (csiSt t r) f = none ∧
        (if fr.bad = false ∧ fr.lines = filtLines (csiSt s r) f then
          qd t q = { qd s q with pp := (qd s q).wp } ∧ (csiSt t r).fseq = ((csiSt s r).fseq + 1) % 256 ∧ (csiSt t r).fnum = fr.fnum ∧
            (csiSt t r).filt = f ∧ (csiSt t r).fstamp = BitVec.ofNat 32 fr.stamp.dt ∧ (csiSt t r).badfrm = (csiSt s r).badfrm
         else qd t q = { qd s q with wp := (qd s q).pp } ∧ (csiSt t r).badfrm = satInc 0xFF (csiSt s r).badfrm ∧
          (csiSt t r).fseq = (csiSt s r).fseq) ∧ QdtMarks s t ∧
        t = { s with csis := t.csis, qm := t.qm, ecc := t.ecc }) ∧
    (∀ r s, bit (csiSt s r).ctrl 0 = true → linkLive s .io = true →
      exec (.ulpsEntry r) s = .next (updCsi s r (fun c => { c with ulps := true })) ∧
        exec (.ulpsExit r) s = .next (updCsi s r (fun c => { c with ulps := false })))
end

