-- ==== Sys2Proof/Laws/Memory.lean ====
section
/-! SUPPORT. The memories keep their canonical form under every operation, and a byte reads back what was written last. -/

namespace Sys2Proof.Machine

open Sys2Proof

/-! ### Cell lists -/

theorem risingFrom_mono {lo lo' : Nat} (h : lo' ≤ lo) : {m : List Host.Cell} → risingFrom lo m = true → risingFrom lo' m = true
  | [], _ => rfl
  | (k, _) :: r, hm => by
    simp only [risingFrom, Bool.and_eq_true, decide_eq_true_eq] at hm ⊢
    exact ⟨Nat.le_trans h hm.1, hm.2⟩

/-- Setting a byte keeps the addresses rising. -/
theorem risingFrom_cellSet (keep : Bool) {lo : Nat} {m : List Host.Cell} {a : Nat} {b : Byte} (ha : lo ≤ a)
    (hm : risingFrom lo m = true) : risingFrom lo (cellSet keep m a b) = true := by
  induction m generalizing lo with
  | nil => cases keep <;> simp [cellSet, risingFrom, ha]
  | cons c r ih =>
    obtain ⟨k, x⟩ := c
    simp only [risingFrom, Bool.and_eq_true, decide_eq_true_eq] at hm
    unfold cellSet
    split
    · cases keep <;> simp [risingFrom, hm, ha]; omega
    · split
      · subst_vars
        cases keep
        · exact risingFrom_mono (by omega) hm.2
        · simp [risingFrom, hm]
      · simp only [risingFrom, Bool.and_eq_true, decide_eq_true_eq]
        exact ⟨hm.1, ih (by omega) hm.2⟩

/-- What is listed after a byte is set was listed before or is the new byte. -/
theorem all_cellSet {p : Host.Cell → Bool} {keep : Bool} {m : List Host.Cell} {a : Nat} {b : Byte} (hm : m.all p = true)
    (hn : keep = true → p (a, b) = true) : (cellSet keep m a b).all p = true := by
  induction m with
  | nil => cases keep <;> simp_all [cellSet]
  | cons c r ih =>
    obtain ⟨k, x⟩ := c
    simp only [List.all_cons, Bool.and_eq_true] at hm
    unfold cellSet
    split
    · cases keep <;> simp_all
    · split
      · cases keep <;> simp_all
      · simp only [List.all_cons, Bool.and_eq_true]
        exact ⟨hm.1, ih hm.2⟩

theorem risingFrom_filter {lo : Nat} {m : List Host.Cell} (p : Host.Cell → Bool) (hm : risingFrom lo m = true) :
    risingFrom lo (m.filter p) = true := by
  induction m generalizing lo with
  | nil => rfl
  | cons c r ih =>
    obtain ⟨k, x⟩ := c
    simp only [risingFrom, Bool.and_eq_true, decide_eq_true_eq] at hm
    by_cases h : p (k, x) = true
    · simp only [List.filter_cons, h, if_true, risingFrom, Bool.and_eq_true, decide_eq_true_eq]
      exact ⟨hm.1, ih hm.2⟩
    · simp only [List.filter_cons, h]
      exact risingFrom_mono (by omega) (ih hm.2)

/-- No byte below the first listed address is listed. -/
theorem cellAt_below {lo : Nat} {m : List Host.Cell} {a : Nat} (hm : risingFrom lo m = true) (h : a < lo) : cellAt m a = none := by
  cases m with
  | nil => rfl
  | cons c r =>
    obtain ⟨k, x⟩ := c
    simp only [risingFrom, Bool.and_eq_true, decide_eq_true_eq] at hm
    simp only [cellAt]
    rw [if_neg (by omega), if_pos (by omega)]

/-- The byte just set. -/
theorem cellAt_cellSet_same {keep : Bool} {lo : Nat} {m : List Host.Cell} {a : Nat} {b : Byte} (hm : risingFrom lo m = true) :
    cellAt (cellSet keep m a b) a = if keep then some b else none := by
  induction m generalizing lo with
  | nil => cases keep <;> simp [cellSet, cellAt]
  | cons c r ih =>
    obtain ⟨k, x⟩ := c
    simp only [risingFrom, Bool.and_eq_true, decide_eq_true_eq] at hm
    unfold cellSet
    split
    · rename_i hlt
      cases keep
      · show cellAt ((k, x) :: r) a = none
        unfold cellAt
        rw [if_neg (by omega), if_pos hlt]
      · simp [cellAt]
    · split
      · subst_vars
        cases keep
        · simpa using cellAt_below hm.2 (by omega)
        · simp [cellAt]
      · simp only [cellAt]
        rw [if_neg (by assumption), if_neg (by omega)]
        exact ih hm.2

/-- Every other byte. -/
theorem cellAt_cellSet_ne {keep : Bool} {lo : Nat} {m : List Host.Cell} {a c : Nat} {b : Byte} (hm : risingFrom lo m = true)
    (h : c ≠ a) : cellAt (cellSet keep m a b) c = cellAt m c := by
  induction m generalizing lo with
  | nil => cases keep <;> simp [cellSet, cellAt, Ne.symm h]
  | cons x r ih =>
    obtain ⟨k, y⟩ := x
    simp only [risingFrom, Bool.and_eq_true, decide_eq_true_eq] at hm
    by_cases h1 : a < k
    · cases keep
      · simp only [cellSet, if_pos h1]; rfl
      · simp only [cellSet, if_pos h1]
        show cellAt ((a, b) :: (k, y) :: r) c = cellAt ((k, y) :: r) c
        by_cases hc : c < a
        · rw [cellAt, if_neg (Ne.symm h), if_pos hc, cellAt, if_neg (by omega), if_pos (by omega)]
        · rw [cellAt, if_neg (Ne.symm h), if_neg hc]
    · by_cases h2 : k = a
      · subst h2
        have hk : ¬ k = c := Ne.symm h
        cases keep
        · simp only [cellSet, if_neg h1, if_true]
          show cellAt r c = cellAt ((k, y) :: r) c
          rw [cellAt, if_neg hk]
          split
          · exact cellAt_below hm.2 (by omega)
          · rfl
        · simp only [cellSet, if_neg h1, if_true]
          show cellAt ((k, b) :: r) c = cellAt ((k, y) :: r) c
          rw [cellAt, if_neg hk, cellAt, if_neg hk]
      · simp only [cellSet, if_neg h1, if_neg h2]
        rw [cellAt, cellAt, ih hm.2]

/-! ### Memories whose unlisted bytes read 0 -/

theorem Memory.wf_nil : Memory.wf [] = true := rfl

theorem Memory.wf_zset {m : List Host.Cell} {a : Nat} {b : Byte} (h : Memory.wf m = true) : Memory.wf (zset m a b) = true := by
  simp only [Memory.wf, Bool.and_eq_true] at h ⊢
  exact ⟨risingFrom_cellSet _ (Nat.zero_le a) h.1, all_cellSet h.2 (fun hb => hb)⟩

theorem Memory.wf_zsetMany {m : List Host.Cell} {a : Nat} {bs : List Byte} (h : Memory.wf m = true) :
    Memory.wf (zsetMany m a bs) = true := by
  induction bs generalizing m a with
  | nil => exact h
  | cons b r ih => exact ih (Memory.wf_zset h)

theorem Memory.wf_filter {m : List Host.Cell} (p : Host.Cell → Bool) (h : Memory.wf m = true) : Memory.wf (m.filter p) = true := by
  simp only [Memory.wf, Bool.and_eq_true] at h ⊢
  exact ⟨risingFrom_filter p h.1, by
    rw [List.all_eq_true] at *
    exact fun c hc => h.2 c (List.mem_filter.mp hc).1⟩

theorem Memory.wf_clearRange {m : List Host.Cell} {lo hi : Nat} (h : Memory.wf m = true) : Memory.wf (clearRange m lo hi) = true :=
  Memory.wf_filter _ h

/-- A byte reads back what was written. -/
theorem zget_zset_same {m : List Host.Cell} {a : Nat} {b : Byte} (h : Memory.wf m = true) : zget (zset m a b) a = b := by
  simp only [Memory.wf, Bool.and_eq_true] at h
  simp only [zget, zset, cellAt_cellSet_same h.1]
  by_cases hb : b = 0
  · subst hb; rfl
  · rw [if_pos (by simpa using hb)]; rfl

/-- Every other byte reads as before. -/
theorem zget_zset_ne {m : List Host.Cell} {a c : Nat} {b : Byte} (h : Memory.wf m = true) (hc : c ≠ a) :
    zget (zset m a b) c = zget m c := by
  simp only [Memory.wf, Bool.and_eq_true] at h
  simp only [zget, zset, cellAt_cellSet_ne h.1 hc]

/-- Bytes outside a written row read as before. -/
theorem zget_zsetMany_out {m : List Host.Cell} {a c : Nat} {bs : List Byte} (h : Memory.wf m = true)
    (hc : c < a ∨ a + bs.length ≤ c) : zget (zsetMany m a bs) c = zget m c := by
  induction bs generalizing m a with
  | nil => rfl
  | cons b r ih =>
    simp only [List.length_cons] at hc
    simp only [zsetMany]
    rw [ih (Memory.wf_zset h) (by omega), zget_zset_ne h (by omega)]

/-! ### Memory of the block -/

theorem memOk_reset : State.reset.memOk := ⟨rfl, rfl, rfl, rfl⟩

/-- What the memories of a state are. -/
theorem memOk_of_eq {s t : State} (h : s.memOk) (h1 : t.mem = s.mem) (h2 : t.scc = s.scc) (h3 : t.clay = s.clay)
    (h4 : t.clayZ0 = s.clayZ0) (h5 : t.clayZ1 = s.clayZ1) : t.memOk := by
  have : clayZeroed t = clayZeroed s := by funext a; simp only [clayZeroed, h4, h5]
  simpa only [State.memOk, this, h1, h2, h3] using h

theorem wfClay_cellSet {z : Nat → Bool} {m : List Host.Cell} {a : Nat} {b : Byte} (h : Memory.wfClay z m = true) :
    Memory.wfClay z (cellSet (!z a || b != 0) m a b) = true := by
  simp only [Memory.wfClay, Bool.and_eq_true] at h ⊢
  exact ⟨risingFrom_cellSet _ (Nat.zero_le a) h.1, all_cellSet h.2 (fun hb => hb)⟩

theorem memOk_writeByte {s : State} {a : Nat} {b : Byte} (h : s.memOk) : (writeByte s a b).memOk := by
  obtain ⟨h1, h2, h3, h4⟩ := h
  unfold writeByte
  split
  · rename_i hc
    exact ⟨h1, h2, wfClay_cellSet h3, all_cellSet h4 (fun _ => hc)⟩
  · split
    · exact ⟨h1, h2, h3, h4⟩
    · exact ⟨Memory.wf_zset h1, h2, h3, h4⟩

theorem memOk_writeBytesRaw {s : State} {a : Nat} {bs : List Byte} (h : s.memOk) : (writeBytesRaw s a bs).memOk := by
  induction bs generalizing s a with
  | nil => exact h
  | cons b r ih => exact ih (memOk_writeByte h)

theorem memOk_writeBytes {s : State} {a : Nat} {bs : List Byte} (h : s.memOk) : (writeBytes s a bs).memOk :=
  memOk_writeBytesRaw h

theorem memOk_writeWord {s : State} {a : Nat} {w : Word} (h : s.memOk) : (writeWord s a w).memOk := memOk_writeBytesRaw h

theorem memOk_zeroRange {s : State} {lo hi : Nat} (h : s.memOk) : (zeroRange s lo hi).memOk :=
  ⟨Memory.wf_clearRange h.1, h.2⟩

theorem memOk_zeroBytes {s : State} {a n : Nat} (h : s.memOk) : (zeroBytes s a n).memOk := by
  unfold zeroBytes
  split
  · exact memOk_writeBytes h
  · exact memOk_zeroRange h

/-- Cells taken out of clay memory: the rest is canonical for every change of the tiles' marks that only concerns what is gone. -/
theorem clay_clear {z z' : Nat → Bool} {m : List Host.Cell} {lo hi : Nat} (h : Memory.wfClay z m = true)
    (hc : m.all (fun c => isClay c.1) = true)
    (hz : ∀ a, isClay a = true → (a < lo ∨ hi ≤ a) → z' a = true → z a = true) :
    Memory.wfClay z' (clearRange m lo hi) = true ∧ (clearRange m lo hi).all (fun c => isClay c.1) = true := by
  simp only [Memory.wfClay, Bool.and_eq_true, List.all_eq_true] at h hc ⊢
  refine ⟨⟨risingFrom_filter _ h.1, fun c hm => ?_⟩, fun c hm => hc c (List.mem_filter.mp hm).1⟩
  have h1 := List.mem_filter.mp hm
  have h2 := h.2 c h1.1
  have h3 : c.1 < lo ∨ hi ≤ c.1 := by simpa using h1.2
  have h4 := hz c.1 (hc c h1.1) h3
  revert h2 h4
  cases z' c.1 <;> cases z c.1 <;> simp

/-- The windows of the two clay tiles. -/
def clayWindow (lo hi : Nat) : Prop := (lo = 0x80000000 ∧ hi = 0xA0000000) ∨ (lo = 0xA0000000 ∧ hi = 0xC0000000)

theorem memOk_wipeClay {s : State} {lo hi : Nat} (hw : clayWindow lo hi) (h : s.memOk) : (wipeClay s lo hi).memOk := by
  obtain ⟨h1, h2, h3, h4⟩ := h
  obtain ⟨rfl, rfl⟩ | ⟨rfl, rfl⟩ := hw
  · refine ⟨h1, h2, clay_clear h3 h4 ?_⟩
    intro a ha hr
    simp only [isClay, Bool.and_eq_true, decide_eq_true_eq] at ha
    have hn : ¬ a < 0xA0000000 := by omega
    simp [wipeClay, clayZeroed, hn]
  · refine ⟨h1, h2, clay_clear h3 h4 ?_⟩
    intro a ha hr
    simp only [isClay, Bool.and_eq_true, decide_eq_true_eq] at ha
    have hn : a < 0xA0000000 := by omega
    simp [wipeClay, clayZeroed, hn]

theorem memOk_loseClay {s : State} {lo hi : Nat} (hw : clayWindow lo hi) (h : s.memOk) : (loseClay s lo hi).memOk := by
  obtain ⟨h1, h2, h3, h4⟩ := h
  obtain ⟨rfl, rfl⟩ | ⟨rfl, rfl⟩ := hw
  · refine ⟨h1, h2, clay_clear h3 h4 ?_⟩
    intro a ha hr
    simp only [isClay, Bool.and_eq_true, decide_eq_true_eq] at ha
    have hn : ¬ a < 0xA0000000 := by omega
    simp [loseClay, clayZeroed, hn]
  · refine ⟨h1, h2, clay_clear h3 h4 ?_⟩
    intro a ha hr
    simp only [isClay, Bool.and_eq_true, decide_eq_true_eq] at ha
    have hn : a < 0xA0000000 := by omega
    simp [loseClay, clayZeroed, hn]

/-- A byte of on-die memory reads back what was written. -/
theorem readByte_writeByte_same {s : State} {a : Nat} {b : Byte} (h : s.memOk) (hr : 0x40000 ≤ a) (hs : sceReserved a = false) :
    readByte (writeByte s a b) a = b := by
  obtain ⟨h1, _, h3, _⟩ := h
  by_cases hc : isClay a = true
  · simp only [Memory.wfClay, Bool.and_eq_true] at h3
    simp only [readByte, writeByte, hc, if_true, cellAt_cellSet_same h3.1, clayZeroed]
    split <;> cases s.clayZ0 <;> cases s.clayZ1 <;> by_cases hb : b = 0#8 <;> simp [hb]
  · have : ¬ a < 0x40000 := by omega
    simp only [readByte, writeByte, hc, hs, decide_eq_false this, Bool.or_self, Bool.false_eq_true, if_false, if_neg this]
    exact zget_zset_same h1

/-- Every other byte reads as before. -/
theorem readByte_writeByte_ne {s : State} {a c : Nat} {b : Byte} (h : s.memOk) (hc : c ≠ a) :
    readByte (writeByte s a b) c = readByte s c := by
  obtain ⟨h1, _, h3, _⟩ := h
  simp only [Memory.wfClay, Bool.and_eq_true] at h3
  unfold writeByte
  split
  · simp only [readByte, clayZeroed]
    rw [cellAt_cellSet_ne h3.1 hc]
    rfl
  · split
    · rfl
    · simp only [readByte, clayZeroed]
      rw [zget_zset_ne h1 hc]
      rfl

/-- Bytes outside a written row read as before. -/
theorem readByte_writeBytesRaw_out {s : State} {a c : Nat} {bs : List Byte} (h : s.memOk) (hc : c < a ∨ a + bs.length ≤ c) :
    readByte (writeBytesRaw s a bs) c = readByte s c := by
  induction bs generalizing s a with
  | nil => rfl
  | cons b r ih =>
    simp only [List.length_cons] at hc
    simp only [writeBytesRaw]
    rw [ih (memOk_writeByte h) (by omega), readByte_writeByte_ne h (by omega)]

theorem readByte_writeBytes_out {s : State} {a c : Nat} {bs : List Byte} (h : s.memOk) (hc : c < a ∨ a + bs.length ≤ c) :
    readByte (writeBytes s a bs) c = readByte s c :=
  (show readByte (writeBytes s a bs) c = readByte (writeBytesRaw s a bs) c from rfl).trans (readByte_writeBytesRaw_out h hc)

end Sys2Proof.Machine
end

