-- ==== Sys2Proof/Laws/State.lean ====
section
/-! SUPPORT. Each named update of the state, field by field: the field it changes, and every other field as before. -/

namespace Sys2Proof.Machine

open Sys2Proof

/-! ### updCp -/

@[simp] theorem updCp_fuses (s : State) (f : Cp → Cp) : (updCp s f).fuses = s.fuses := rfl
@[simp] theorem updCp_boot (s : State) (f : Cp → Cp) : (updCp s f).boot = s.boot := rfl
@[simp] theorem updCp_sel (s : State) (f : Cp → Cp) : (updCp s f).sel = s.sel := rfl
@[simp] theorem updCp_pwr (s : State) (f : Cp → Cp) : (updCp s f).pwr = s.pwr := rfl
@[simp] theorem updCp_clk (s : State) (f : Cp → Cp) : (updCp s f).clk = s.clk := rfl
@[simp] theorem updCp_tim (s : State) (f : Cp → Cp) : (updCp s f).tim = s.tim := rfl
@[simp] theorem updCp_isl (s : State) (f : Cp → Cp) : (updCp s f).isl = s.isl := rfl
@[simp] theorem updCp_outstanding (s : State) (f : Cp → Cp) : (updCp s f).outstanding = s.outstanding := rfl
@[simp] theorem updCp_flt (s : State) (f : Cp → Cp) : (updCp s f).flt = s.flt := rfl
@[simp] theorem updCp_cp (s : State) (f : Cp → Cp) : (updCp s f).cp = f s.cp := rfl
@[simp] theorem updCp_win (s : State) (f : Cp → Cp) : (updCp s f).win = s.win := rfl
@[simp] theorem updCp_db (s : State) (f : Cp → Cp) : (updCp s f).db = s.db := rfl
@[simp] theorem updCp_slip0 (s : State) (f : Cp → Cp) : (updCp s f).slip0 = s.slip0 := rfl
@[simp] theorem updCp_slip1 (s : State) (f : Cp → Cp) : (updCp s f).slip1 = s.slip1 := rfl
@[simp] theorem updCp_sns (s : State) (f : Cp → Cp) : (updCp s f).sns = s.sns := rfl
@[simp] theorem updCp_iotXfer (s : State) (f : Cp → Cp) : (updCp s f).iotXfer = s.iotXfer := rfl
@[simp] theorem updCp_iotCfg (s : State) (f : Cp → Cp) : (updCp s f).iotCfg = s.iotCfg := rfl
@[simp] theorem updCp_hp (s : State) (f : Cp → Cp) : (updCp s f).hp = s.hp := rfl
@[simp] theorem updCp_sce (s : State) (f : Cp → Cp) : (updCp s f).sce = s.sce := rfl
@[simp] theorem updCp_sed (s : State) (f : Cp → Cp) : (updCp s f).sed = s.sed := rfl
@[simp] theorem updCp_qm (s : State) (f : Cp → Cp) : (updCp s f).qm = s.qm := rfl
@[simp] theorem updCp_scs (s : State) (f : Cp → Cp) : (updCp s f).scs = s.scs := rfl
@[simp] theorem updCp_scTmo (s : State) (f : Cp → Cp) : (updCp s f).scTmo = s.scTmo := rfl
@[simp] theorem updCp_engs (s : State) (f : Cp → Cp) : (updCp s f).engs = s.engs := rfl
@[simp] theorem updCp_sats (s : State) (f : Cp → Cp) : (updCp s f).sats = s.sats := rfl
@[simp] theorem updCp_satHit (s : State) (f : Cp → Cp) : (updCp s f).satHit = s.satHit := rfl
@[simp] theorem updCp_ldg (s : State) (f : Cp → Cp) : (updCp s f).ldg = s.ldg := rfl
@[simp] theorem updCp_cap (s : State) (f : Cp → Cp) : (updCp s f).cap = s.cap := rfl
@[simp] theorem updCp_lc (s : State) (f : Cp → Cp) : (updCp s f).lc = s.lc := rfl
@[simp] theorem updCp_jtag (s : State) (f : Cp → Cp) : (updCp s f).jtag = s.jtag := rfl
@[simp] theorem updCp_tiles (s : State) (f : Cp → Cp) : (updCp s f).tiles = s.tiles := rfl
@[simp] theorem updCp_csis (s : State) (f : Cp → Cp) : (updCp s f).csis = s.csis := rfl
@[simp] theorem updCp_mem (s : State) (f : Cp → Cp) : (updCp s f).mem = s.mem := rfl
@[simp] theorem updCp_clay (s : State) (f : Cp → Cp) : (updCp s f).clay = s.clay := rfl
@[simp] theorem updCp_clayK (s : State) (f : Cp → Cp) : (updCp s f).clayK = s.clayK := rfl
@[simp] theorem updCp_clayZ0 (s : State) (f : Cp → Cp) : (updCp s f).clayZ0 = s.clayZ0 := rfl
@[simp] theorem updCp_clayZ1 (s : State) (f : Cp → Cp) : (updCp s f).clayZ1 = s.clayZ1 := rfl
@[simp] theorem updCp_scc (s : State) (f : Cp → Cp) : (updCp s f).scc = s.scc := rfl
@[simp] theorem updCp_ecc (s : State) (f : Cp → Cp) : (updCp s f).ecc = s.ecc := rfl
@[simp] theorem updCp_sccEcc (s : State) (f : Cp → Cp) : (updCp s f).sccEcc = s.sccEcc := rfl
@[simp] theorem updCp_wiping (s : State) (f : Cp → Cp) : (updCp s f).wiping = s.wiping := rfl
@[simp] theorem updCp_freeK (s : State) (f : Cp → Cp) : (updCp s f).freeK = s.freeK := rfl
@[simp] theorem updCp_pending (s : State) (f : Cp → Cp) : (updCp s f).pending = s.pending := rfl

/-! ### updPwr -/

@[simp] theorem updPwr_fuses (s : State) (f : Pwr → Pwr) : (updPwr s f).fuses = s.fuses := rfl
@[simp] theorem updPwr_boot (s : State) (f : Pwr → Pwr) : (updPwr s f).boot = s.boot := rfl
@[simp] theorem updPwr_sel (s : State) (f : Pwr → Pwr) : (updPwr s f).sel = s.sel := rfl
@[simp] theorem updPwr_pwr (s : State) (f : Pwr → Pwr) : (updPwr s f).pwr = f s.pwr := rfl
@[simp] theorem updPwr_clk (s : State) (f : Pwr → Pwr) : (updPwr s f).clk = s.clk := rfl
@[simp] theorem updPwr_tim (s : State) (f : Pwr → Pwr) : (updPwr s f).tim = s.tim := rfl
@[simp] theorem updPwr_isl (s : State) (f : Pwr → Pwr) : (updPwr s f).isl = s.isl := rfl
@[simp] theorem updPwr_outstanding (s : State) (f : Pwr → Pwr) : (updPwr s f).outstanding = s.outstanding := rfl
@[simp] theorem updPwr_flt (s : State) (f : Pwr → Pwr) : (updPwr s f).flt = s.flt := rfl
@[simp] theorem updPwr_cp (s : State) (f : Pwr → Pwr) : (updPwr s f).cp = s.cp := rfl
@[simp] theorem updPwr_win (s : State) (f : Pwr → Pwr) : (updPwr s f).win = s.win := rfl
@[simp] theorem updPwr_db (s : State) (f : Pwr → Pwr) : (updPwr s f).db = s.db := rfl
@[simp] theorem updPwr_slip0 (s : State) (f : Pwr → Pwr) : (updPwr s f).slip0 = s.slip0 := rfl
@[simp] theorem updPwr_slip1 (s : State) (f : Pwr → Pwr) : (updPwr s f).slip1 = s.slip1 := rfl
@[simp] theorem updPwr_sns (s : State) (f : Pwr → Pwr) : (updPwr s f).sns = s.sns := rfl
@[simp] theorem updPwr_iotXfer (s : State) (f : Pwr → Pwr) : (updPwr s f).iotXfer = s.iotXfer := rfl
@[simp] theorem updPwr_iotCfg (s : State) (f : Pwr → Pwr) : (updPwr s f).iotCfg = s.iotCfg := rfl
@[simp] theorem updPwr_hp (s : State) (f : Pwr → Pwr) : (updPwr s f).hp = s.hp := rfl
@[simp] theorem updPwr_sce (s : State) (f : Pwr → Pwr) : (updPwr s f).sce = s.sce := rfl
@[simp] theorem updPwr_sed (s : State) (f : Pwr → Pwr) : (updPwr s f).sed = s.sed := rfl
@[simp] theorem updPwr_qm (s : State) (f : Pwr → Pwr) : (updPwr s f).qm = s.qm := rfl
@[simp] theorem updPwr_scs (s : State) (f : Pwr → Pwr) : (updPwr s f).scs = s.scs := rfl
@[simp] theorem updPwr_scTmo (s : State) (f : Pwr → Pwr) : (updPwr s f).scTmo = s.scTmo := rfl
@[simp] theorem updPwr_engs (s : State) (f : Pwr → Pwr) : (updPwr s f).engs = s.engs := rfl
@[simp] theorem updPwr_sats (s : State) (f : Pwr → Pwr) : (updPwr s f).sats = s.sats := rfl
@[simp] theorem updPwr_satHit (s : State) (f : Pwr → Pwr) : (updPwr s f).satHit = s.satHit := rfl
@[simp] theorem updPwr_ldg (s : State) (f : Pwr → Pwr) : (updPwr s f).ldg = s.ldg := rfl
@[simp] theorem updPwr_cap (s : State) (f : Pwr → Pwr) : (updPwr s f).cap = s.cap := rfl
@[simp] theorem updPwr_lc (s : State) (f : Pwr → Pwr) : (updPwr s f).lc = s.lc := rfl
@[simp] theorem updPwr_jtag (s : State) (f : Pwr → Pwr) : (updPwr s f).jtag = s.jtag := rfl
@[simp] theorem updPwr_tiles (s : State) (f : Pwr → Pwr) : (updPwr s f).tiles = s.tiles := rfl
@[simp] theorem updPwr_csis (s : State) (f : Pwr → Pwr) : (updPwr s f).csis = s.csis := rfl
@[simp] theorem updPwr_mem (s : State) (f : Pwr → Pwr) : (updPwr s f).mem = s.mem := rfl
@[simp] theorem updPwr_clay (s : State) (f : Pwr → Pwr) : (updPwr s f).clay = s.clay := rfl
@[simp] theorem updPwr_clayK (s : State) (f : Pwr → Pwr) : (updPwr s f).clayK = s.clayK := rfl
@[simp] theorem updPwr_clayZ0 (s : State) (f : Pwr → Pwr) : (updPwr s f).clayZ0 = s.clayZ0 := rfl
@[simp] theorem updPwr_clayZ1 (s : State) (f : Pwr → Pwr) : (updPwr s f).clayZ1 = s.clayZ1 := rfl
@[simp] theorem updPwr_scc (s : State) (f : Pwr → Pwr) : (updPwr s f).scc = s.scc := rfl
@[simp] theorem updPwr_ecc (s : State) (f : Pwr → Pwr) : (updPwr s f).ecc = s.ecc := rfl
@[simp] theorem updPwr_sccEcc (s : State) (f : Pwr → Pwr) : (updPwr s f).sccEcc = s.sccEcc := rfl
@[simp] theorem updPwr_wiping (s : State) (f : Pwr → Pwr) : (updPwr s f).wiping = s.wiping := rfl
@[simp] theorem updPwr_freeK (s : State) (f : Pwr → Pwr) : (updPwr s f).freeK = s.freeK := rfl
@[simp] theorem updPwr_pending (s : State) (f : Pwr → Pwr) : (updPwr s f).pending = s.pending := rfl

/-! ### updClk -/

@[simp] theorem updClk_fuses (s : State) (f : Clk → Clk) : (updClk s f).fuses = s.fuses := rfl
@[simp] theorem updClk_boot (s : State) (f : Clk → Clk) : (updClk s f).boot = s.boot := rfl
@[simp] theorem updClk_sel (s : State) (f : Clk → Clk) : (updClk s f).sel = s.sel := rfl
@[simp] theorem updClk_pwr (s : State) (f : Clk → Clk) : (updClk s f).pwr = s.pwr := rfl
@[simp] theorem updClk_clk (s : State) (f : Clk → Clk) : (updClk s f).clk = f s.clk := rfl
@[simp] theorem updClk_tim (s : State) (f : Clk → Clk) : (updClk s f).tim = s.tim := rfl
@[simp] theorem updClk_isl (s : State) (f : Clk → Clk) : (updClk s f).isl = s.isl := rfl
@[simp] theorem updClk_outstanding (s : State) (f : Clk → Clk) : (updClk s f).outstanding = s.outstanding := rfl
@[simp] theorem updClk_flt (s : State) (f : Clk → Clk) : (updClk s f).flt = s.flt := rfl
@[simp] theorem updClk_cp (s : State) (f : Clk → Clk) : (updClk s f).cp = s.cp := rfl
@[simp] theorem updClk_win (s : State) (f : Clk → Clk) : (updClk s f).win = s.win := rfl
@[simp] theorem updClk_db (s : State) (f : Clk → Clk) : (updClk s f).db = s.db := rfl
@[simp] theorem updClk_slip0 (s : State) (f : Clk → Clk) : (updClk s f).slip0 = s.slip0 := rfl
@[simp] theorem updClk_slip1 (s : State) (f : Clk → Clk) : (updClk s f).slip1 = s.slip1 := rfl
@[simp] theorem updClk_sns (s : State) (f : Clk → Clk) : (updClk s f).sns = s.sns := rfl
@[simp] theorem updClk_iotXfer (s : State) (f : Clk → Clk) : (updClk s f).iotXfer = s.iotXfer := rfl
@[simp] theorem updClk_iotCfg (s : State) (f : Clk → Clk) : (updClk s f).iotCfg = s.iotCfg := rfl
@[simp] theorem updClk_hp (s : State) (f : Clk → Clk) : (updClk s f).hp = s.hp := rfl
@[simp] theorem updClk_sce (s : State) (f : Clk → Clk) : (updClk s f).sce = s.sce := rfl
@[simp] theorem updClk_sed (s : State) (f : Clk → Clk) : (updClk s f).sed = s.sed := rfl
@[simp] theorem updClk_qm (s : State) (f : Clk → Clk) : (updClk s f).qm = s.qm := rfl
@[simp] theorem updClk_scs (s : State) (f : Clk → Clk) : (updClk s f).scs = s.scs := rfl
@[simp] theorem updClk_scTmo (s : State) (f : Clk → Clk) : (updClk s f).scTmo = s.scTmo := rfl
@[simp] theorem updClk_engs (s : State) (f : Clk → Clk) : (updClk s f).engs = s.engs := rfl
@[simp] theorem updClk_sats (s : State) (f : Clk → Clk) : (updClk s f).sats = s.sats := rfl
@[simp] theorem updClk_satHit (s : State) (f : Clk → Clk) : (updClk s f).satHit = s.satHit := rfl
@[simp] theorem updClk_ldg (s : State) (f : Clk → Clk) : (updClk s f).ldg = s.ldg := rfl
@[simp] theorem updClk_cap (s : State) (f : Clk → Clk) : (updClk s f).cap = s.cap := rfl
@[simp] theorem updClk_lc (s : State) (f : Clk → Clk) : (updClk s f).lc = s.lc := rfl
@[simp] theorem updClk_jtag (s : State) (f : Clk → Clk) : (updClk s f).jtag = s.jtag := rfl
@[simp] theorem updClk_tiles (s : State) (f : Clk → Clk) : (updClk s f).tiles = s.tiles := rfl
@[simp] theorem updClk_csis (s : State) (f : Clk → Clk) : (updClk s f).csis = s.csis := rfl
@[simp] theorem updClk_mem (s : State) (f : Clk → Clk) : (updClk s f).mem = s.mem := rfl
@[simp] theorem updClk_clay (s : State) (f : Clk → Clk) : (updClk s f).clay = s.clay := rfl
@[simp] theorem updClk_clayK (s : State) (f : Clk → Clk) : (updClk s f).clayK = s.clayK := rfl
@[simp] theorem updClk_clayZ0 (s : State) (f : Clk → Clk) : (updClk s f).clayZ0 = s.clayZ0 := rfl
@[simp] theorem updClk_clayZ1 (s : State) (f : Clk → Clk) : (updClk s f).clayZ1 = s.clayZ1 := rfl
@[simp] theorem updClk_scc (s : State) (f : Clk → Clk) : (updClk s f).scc = s.scc := rfl
@[simp] theorem updClk_ecc (s : State) (f : Clk → Clk) : (updClk s f).ecc = s.ecc := rfl
@[simp] theorem updClk_sccEcc (s : State) (f : Clk → Clk) : (updClk s f).sccEcc = s.sccEcc := rfl
@[simp] theorem updClk_wiping (s : State) (f : Clk → Clk) : (updClk s f).wiping = s.wiping := rfl
@[simp] theorem updClk_freeK (s : State) (f : Clk → Clk) : (updClk s f).freeK = s.freeK := rfl
@[simp] theorem updClk_pending (s : State) (f : Clk → Clk) : (updClk s f).pending = s.pending := rfl

/-! ### updTim -/

@[simp] theorem updTim_fuses (s : State) (f : Tim → Tim) : (updTim s f).fuses = s.fuses := rfl
@[simp] theorem updTim_boot (s : State) (f : Tim → Tim) : (updTim s f).boot = s.boot := rfl
@[simp] theorem updTim_sel (s : State) (f : Tim → Tim) : (updTim s f).sel = s.sel := rfl
@[simp] theorem updTim_pwr (s : State) (f : Tim → Tim) : (updTim s f).pwr = s.pwr := rfl
@[simp] theorem updTim_clk (s : State) (f : Tim → Tim) : (updTim s f).clk = s.clk := rfl
@[simp] theorem updTim_tim (s : State) (f : Tim → Tim) : (updTim s f).tim = f s.tim := rfl
@[simp] theorem updTim_isl (s : State) (f : Tim → Tim) : (updTim s f).isl = s.isl := rfl
@[simp] theorem updTim_outstanding (s : State) (f : Tim → Tim) : (updTim s f).outstanding = s.outstanding := rfl
@[simp] theorem updTim_flt (s : State) (f : Tim → Tim) : (updTim s f).flt = s.flt := rfl
@[simp] theorem updTim_cp (s : State) (f : Tim → Tim) : (updTim s f).cp = s.cp := rfl
@[simp] theorem updTim_win (s : State) (f : Tim → Tim) : (updTim s f).win = s.win := rfl
@[simp] theorem updTim_db (s : State) (f : Tim → Tim) : (updTim s f).db = s.db := rfl
@[simp] theorem updTim_slip0 (s : State) (f : Tim → Tim) : (updTim s f).slip0 = s.slip0 := rfl
@[simp] theorem updTim_slip1 (s : State) (f : Tim → Tim) : (updTim s f).slip1 = s.slip1 := rfl
@[simp] theorem updTim_sns (s : State) (f : Tim → Tim) : (updTim s f).sns = s.sns := rfl
@[simp] theorem updTim_iotXfer (s : State) (f : Tim → Tim) : (updTim s f).iotXfer = s.iotXfer := rfl
@[simp] theorem updTim_iotCfg (s : State) (f : Tim → Tim) : (updTim s f).iotCfg = s.iotCfg := rfl
@[simp] theorem updTim_hp (s : State) (f : Tim → Tim) : (updTim s f).hp = s.hp := rfl
@[simp] theorem updTim_sce (s : State) (f : Tim → Tim) : (updTim s f).sce = s.sce := rfl
@[simp] theorem updTim_sed (s : State) (f : Tim → Tim) : (updTim s f).sed = s.sed := rfl
@[simp] theorem updTim_qm (s : State) (f : Tim → Tim) : (updTim s f).qm = s.qm := rfl
@[simp] theorem updTim_scs (s : State) (f : Tim → Tim) : (updTim s f).scs = s.scs := rfl
@[simp] theorem updTim_scTmo (s : State) (f : Tim → Tim) : (updTim s f).scTmo = s.scTmo := rfl
@[simp] theorem updTim_engs (s : State) (f : Tim → Tim) : (updTim s f).engs = s.engs := rfl
@[simp] theorem updTim_sats (s : State) (f : Tim → Tim) : (updTim s f).sats = s.sats := rfl
@[simp] theorem updTim_satHit (s : State) (f : Tim → Tim) : (updTim s f).satHit = s.satHit := rfl
@[simp] theorem updTim_ldg (s : State) (f : Tim → Tim) : (updTim s f).ldg = s.ldg := rfl
@[simp] theorem updTim_cap (s : State) (f : Tim → Tim) : (updTim s f).cap = s.cap := rfl
@[simp] theorem updTim_lc (s : State) (f : Tim → Tim) : (updTim s f).lc = s.lc := rfl
@[simp] theorem updTim_jtag (s : State) (f : Tim → Tim) : (updTim s f).jtag = s.jtag := rfl
@[simp] theorem updTim_tiles (s : State) (f : Tim → Tim) : (updTim s f).tiles = s.tiles := rfl
@[simp] theorem updTim_csis (s : State) (f : Tim → Tim) : (updTim s f).csis = s.csis := rfl
@[simp] theorem updTim_mem (s : State) (f : Tim → Tim) : (updTim s f).mem = s.mem := rfl
@[simp] theorem updTim_clay (s : State) (f : Tim → Tim) : (updTim s f).clay = s.clay := rfl
@[simp] theorem updTim_clayK (s : State) (f : Tim → Tim) : (updTim s f).clayK = s.clayK := rfl
@[simp] theorem updTim_clayZ0 (s : State) (f : Tim → Tim) : (updTim s f).clayZ0 = s.clayZ0 := rfl
@[simp] theorem updTim_clayZ1 (s : State) (f : Tim → Tim) : (updTim s f).clayZ1 = s.clayZ1 := rfl
@[simp] theorem updTim_scc (s : State) (f : Tim → Tim) : (updTim s f).scc = s.scc := rfl
@[simp] theorem updTim_ecc (s : State) (f : Tim → Tim) : (updTim s f).ecc = s.ecc := rfl
@[simp] theorem updTim_sccEcc (s : State) (f : Tim → Tim) : (updTim s f).sccEcc = s.sccEcc := rfl
@[simp] theorem updTim_wiping (s : State) (f : Tim → Tim) : (updTim s f).wiping = s.wiping := rfl
@[simp] theorem updTim_freeK (s : State) (f : Tim → Tim) : (updTim s f).freeK = s.freeK := rfl
@[simp] theorem updTim_pending (s : State) (f : Tim → Tim) : (updTim s f).pending = s.pending := rfl

/-! ### updHp -/

@[simp] theorem updHp_fuses (s : State) (f : Hp → Hp) : (updHp s f).fuses = s.fuses := rfl
@[simp] theorem updHp_boot (s : State) (f : Hp → Hp) : (updHp s f).boot = s.boot := rfl
@[simp] theorem updHp_sel (s : State) (f : Hp → Hp) : (updHp s f).sel = s.sel := rfl
@[simp] theorem updHp_pwr (s : State) (f : Hp → Hp) : (updHp s f).pwr = s.pwr := rfl
@[simp] theorem updHp_clk (s : State) (f : Hp → Hp) : (updHp s f).clk = s.clk := rfl
@[simp] theorem updHp_tim (s : State) (f : Hp → Hp) : (updHp s f).tim = s.tim := rfl
@[simp] theorem updHp_isl (s : State) (f : Hp → Hp) : (updHp s f).isl = s.isl := rfl
@[simp] theorem updHp_outstanding (s : State) (f : Hp → Hp) : (updHp s f).outstanding = s.outstanding := rfl
@[simp] theorem updHp_flt (s : State) (f : Hp → Hp) : (updHp s f).flt = s.flt := rfl
@[simp] theorem updHp_cp (s : State) (f : Hp → Hp) : (updHp s f).cp = s.cp := rfl
@[simp] theorem updHp_win (s : State) (f : Hp → Hp) : (updHp s f).win = s.win := rfl
@[simp] theorem updHp_db (s : State) (f : Hp → Hp) : (updHp s f).db = s.db := rfl
@[simp] theorem updHp_slip0 (s : State) (f : Hp → Hp) : (updHp s f).slip0 = s.slip0 := rfl
@[simp] theorem updHp_slip1 (s : State) (f : Hp → Hp) : (updHp s f).slip1 = s.slip1 := rfl
@[simp] theorem updHp_sns (s : State) (f : Hp → Hp) : (updHp s f).sns = s.sns := rfl
@[simp] theorem updHp_iotXfer (s : State) (f : Hp → Hp) : (updHp s f).iotXfer = s.iotXfer := rfl
@[simp] theorem updHp_iotCfg (s : State) (f : Hp → Hp) : (updHp s f).iotCfg = s.iotCfg := rfl
@[simp] theorem updHp_hp (s : State) (f : Hp → Hp) : (updHp s f).hp = f s.hp := rfl
@[simp] theorem updHp_sce (s : State) (f : Hp → Hp) : (updHp s f).sce = s.sce := rfl
@[simp] theorem updHp_sed (s : State) (f : Hp → Hp) : (updHp s f).sed = s.sed := rfl
@[simp] theorem updHp_qm (s : State) (f : Hp → Hp) : (updHp s f).qm = s.qm := rfl
@[simp] theorem updHp_scs (s : State) (f : Hp → Hp) : (updHp s f).scs = s.scs := rfl
@[simp] theorem updHp_scTmo (s : State) (f : Hp → Hp) : (updHp s f).scTmo = s.scTmo := rfl
@[simp] theorem updHp_engs (s : State) (f : Hp → Hp) : (updHp s f).engs = s.engs := rfl
@[simp] theorem updHp_sats (s : State) (f : Hp → Hp) : (updHp s f).sats = s.sats := rfl
@[simp] theorem updHp_satHit (s : State) (f : Hp → Hp) : (updHp s f).satHit = s.satHit := rfl
@[simp] theorem updHp_ldg (s : State) (f : Hp → Hp) : (updHp s f).ldg = s.ldg := rfl
@[simp] theorem updHp_cap (s : State) (f : Hp → Hp) : (updHp s f).cap = s.cap := rfl
@[simp] theorem updHp_lc (s : State) (f : Hp → Hp) : (updHp s f).lc = s.lc := rfl
@[simp] theorem updHp_jtag (s : State) (f : Hp → Hp) : (updHp s f).jtag = s.jtag := rfl
@[simp] theorem updHp_tiles (s : State) (f : Hp → Hp) : (updHp s f).tiles = s.tiles := rfl
@[simp] theorem updHp_csis (s : State) (f : Hp → Hp) : (updHp s f).csis = s.csis := rfl
@[simp] theorem updHp_mem (s : State) (f : Hp → Hp) : (updHp s f).mem = s.mem := rfl
@[simp] theorem updHp_clay (s : State) (f : Hp → Hp) : (updHp s f).clay = s.clay := rfl
@[simp] theorem updHp_clayK (s : State) (f : Hp → Hp) : (updHp s f).clayK = s.clayK := rfl
@[simp] theorem updHp_clayZ0 (s : State) (f : Hp → Hp) : (updHp s f).clayZ0 = s.clayZ0 := rfl
@[simp] theorem updHp_clayZ1 (s : State) (f : Hp → Hp) : (updHp s f).clayZ1 = s.clayZ1 := rfl
@[simp] theorem updHp_scc (s : State) (f : Hp → Hp) : (updHp s f).scc = s.scc := rfl
@[simp] theorem updHp_ecc (s : State) (f : Hp → Hp) : (updHp s f).ecc = s.ecc := rfl
@[simp] theorem updHp_sccEcc (s : State) (f : Hp → Hp) : (updHp s f).sccEcc = s.sccEcc := rfl
@[simp] theorem updHp_wiping (s : State) (f : Hp → Hp) : (updHp s f).wiping = s.wiping := rfl
@[simp] theorem updHp_freeK (s : State) (f : Hp → Hp) : (updHp s f).freeK = s.freeK := rfl
@[simp] theorem updHp_pending (s : State) (f : Hp → Hp) : (updHp s f).pending = s.pending := rfl

/-! ### updSns -/

@[simp] theorem updSns_fuses (s : State) (f : Sns → Sns) : (updSns s f).fuses = s.fuses := rfl
@[simp] theorem updSns_boot (s : State) (f : Sns → Sns) : (updSns s f).boot = s.boot := rfl
@[simp] theorem updSns_sel (s : State) (f : Sns → Sns) : (updSns s f).sel = s.sel := rfl
@[simp] theorem updSns_pwr (s : State) (f : Sns → Sns) : (updSns s f).pwr = s.pwr := rfl
@[simp] theorem updSns_clk (s : State) (f : Sns → Sns) : (updSns s f).clk = s.clk := rfl
@[simp] theorem updSns_tim (s : State) (f : Sns → Sns) : (updSns s f).tim = s.tim := rfl
@[simp] theorem updSns_isl (s : State) (f : Sns → Sns) : (updSns s f).isl = s.isl := rfl
@[simp] theorem updSns_outstanding (s : State) (f : Sns → Sns) : (updSns s f).outstanding = s.outstanding := rfl
@[simp] theorem updSns_flt (s : State) (f : Sns → Sns) : (updSns s f).flt = s.flt := rfl
@[simp] theorem updSns_cp (s : State) (f : Sns → Sns) : (updSns s f).cp = s.cp := rfl
@[simp] theorem updSns_win (s : State) (f : Sns → Sns) : (updSns s f).win = s.win := rfl
@[simp] theorem updSns_db (s : State) (f : Sns → Sns) : (updSns s f).db = s.db := rfl
@[simp] theorem updSns_slip0 (s : State) (f : Sns → Sns) : (updSns s f).slip0 = s.slip0 := rfl
@[simp] theorem updSns_slip1 (s : State) (f : Sns → Sns) : (updSns s f).slip1 = s.slip1 := rfl
@[simp] theorem updSns_sns (s : State) (f : Sns → Sns) : (updSns s f).sns = f s.sns := rfl
@[simp] theorem updSns_iotXfer (s : State) (f : Sns → Sns) : (updSns s f).iotXfer = s.iotXfer := rfl
@[simp] theorem updSns_iotCfg (s : State) (f : Sns → Sns) : (updSns s f).iotCfg = s.iotCfg := rfl
@[simp] theorem updSns_hp (s : State) (f : Sns → Sns) : (updSns s f).hp = s.hp := rfl
@[simp] theorem updSns_sce (s : State) (f : Sns → Sns) : (updSns s f).sce = s.sce := rfl
@[simp] theorem updSns_sed (s : State) (f : Sns → Sns) : (updSns s f).sed = s.sed := rfl
@[simp] theorem updSns_qm (s : State) (f : Sns → Sns) : (updSns s f).qm = s.qm := rfl
@[simp] theorem updSns_scs (s : State) (f : Sns → Sns) : (updSns s f).scs = s.scs := rfl
@[simp] theorem updSns_scTmo (s : State) (f : Sns → Sns) : (updSns s f).scTmo = s.scTmo := rfl
@[simp] theorem updSns_engs (s : State) (f : Sns → Sns) : (updSns s f).engs = s.engs := rfl
@[simp] theorem updSns_sats (s : State) (f : Sns → Sns) : (updSns s f).sats = s.sats := rfl
@[simp] theorem updSns_satHit (s : State) (f : Sns → Sns) : (updSns s f).satHit = s.satHit := rfl
@[simp] theorem updSns_ldg (s : State) (f : Sns → Sns) : (updSns s f).ldg = s.ldg := rfl
@[simp] theorem updSns_cap (s : State) (f : Sns → Sns) : (updSns s f).cap = s.cap := rfl
@[simp] theorem updSns_lc (s : State) (f : Sns → Sns) : (updSns s f).lc = s.lc := rfl
@[simp] theorem updSns_jtag (s : State) (f : Sns → Sns) : (updSns s f).jtag = s.jtag := rfl
@[simp] theorem updSns_tiles (s : State) (f : Sns → Sns) : (updSns s f).tiles = s.tiles := rfl
@[simp] theorem updSns_csis (s : State) (f : Sns → Sns) : (updSns s f).csis = s.csis := rfl
@[simp] theorem updSns_mem (s : State) (f : Sns → Sns) : (updSns s f).mem = s.mem := rfl
@[simp] theorem updSns_clay (s : State) (f : Sns → Sns) : (updSns s f).clay = s.clay := rfl
@[simp] theorem updSns_clayK (s : State) (f : Sns → Sns) : (updSns s f).clayK = s.clayK := rfl
@[simp] theorem updSns_clayZ0 (s : State) (f : Sns → Sns) : (updSns s f).clayZ0 = s.clayZ0 := rfl
@[simp] theorem updSns_clayZ1 (s : State) (f : Sns → Sns) : (updSns s f).clayZ1 = s.clayZ1 := rfl
@[simp] theorem updSns_scc (s : State) (f : Sns → Sns) : (updSns s f).scc = s.scc := rfl
@[simp] theorem updSns_ecc (s : State) (f : Sns → Sns) : (updSns s f).ecc = s.ecc := rfl
@[simp] theorem updSns_sccEcc (s : State) (f : Sns → Sns) : (updSns s f).sccEcc = s.sccEcc := rfl
@[simp] theorem updSns_wiping (s : State) (f : Sns → Sns) : (updSns s f).wiping = s.wiping := rfl
@[simp] theorem updSns_freeK (s : State) (f : Sns → Sns) : (updSns s f).freeK = s.freeK := rfl
@[simp] theorem updSns_pending (s : State) (f : Sns → Sns) : (updSns s f).pending = s.pending := rfl

/-! ### updSce -/

@[simp] theorem updSce_fuses (s : State) (f : Sce → Sce) : (updSce s f).fuses = s.fuses := rfl
@[simp] theorem updSce_boot (s : State) (f : Sce → Sce) : (updSce s f).boot = s.boot := rfl
@[simp] theorem updSce_sel (s : State) (f : Sce → Sce) : (updSce s f).sel = s.sel := rfl
@[simp] theorem updSce_pwr (s : State) (f : Sce → Sce) : (updSce s f).pwr = s.pwr := rfl
@[simp] theorem updSce_clk (s : State) (f : Sce → Sce) : (updSce s f).clk = s.clk := rfl
@[simp] theorem updSce_tim (s : State) (f : Sce → Sce) : (updSce s f).tim = s.tim := rfl
@[simp] theorem updSce_isl (s : State) (f : Sce → Sce) : (updSce s f).isl = s.isl := rfl
@[simp] theorem updSce_outstanding (s : State) (f : Sce → Sce) : (updSce s f).outstanding = s.outstanding := rfl
@[simp] theorem updSce_flt (s : State) (f : Sce → Sce) : (updSce s f).flt = s.flt := rfl
@[simp] theorem updSce_cp (s : State) (f : Sce → Sce) : (updSce s f).cp = s.cp := rfl
@[simp] theorem updSce_win (s : State) (f : Sce → Sce) : (updSce s f).win = s.win := rfl
@[simp] theorem updSce_db (s : State) (f : Sce → Sce) : (updSce s f).db = s.db := rfl
@[simp] theorem updSce_slip0 (s : State) (f : Sce → Sce) : (updSce s f).slip0 = s.slip0 := rfl
@[simp] theorem updSce_slip1 (s : State) (f : Sce → Sce) : (updSce s f).slip1 = s.slip1 := rfl
@[simp] theorem updSce_sns (s : State) (f : Sce → Sce) : (updSce s f).sns = s.sns := rfl
@[simp] theorem updSce_iotXfer (s : State) (f : Sce → Sce) : (updSce s f).iotXfer = s.iotXfer := rfl
@[simp] theorem updSce_iotCfg (s : State) (f : Sce → Sce) : (updSce s f).iotCfg = s.iotCfg := rfl
@[simp] theorem updSce_hp (s : State) (f : Sce → Sce) : (updSce s f).hp = s.hp := rfl
@[simp] theorem updSce_sce (s : State) (f : Sce → Sce) : (updSce s f).sce = f s.sce := rfl
@[simp] theorem updSce_sed (s : State) (f : Sce → Sce) : (updSce s f).sed = s.sed := rfl
@[simp] theorem updSce_qm (s : State) (f : Sce → Sce) : (updSce s f).qm = s.qm := rfl
@[simp] theorem updSce_scs (s : State) (f : Sce → Sce) : (updSce s f).scs = s.scs := rfl
@[simp] theorem updSce_scTmo (s : State) (f : Sce → Sce) : (updSce s f).scTmo = s.scTmo := rfl
@[simp] theorem updSce_engs (s : State) (f : Sce → Sce) : (updSce s f).engs = s.engs := rfl
@[simp] theorem updSce_sats (s : State) (f : Sce → Sce) : (updSce s f).sats = s.sats := rfl
@[simp] theorem updSce_satHit (s : State) (f : Sce → Sce) : (updSce s f).satHit = s.satHit := rfl
@[simp] theorem updSce_ldg (s : State) (f : Sce → Sce) : (updSce s f).ldg = s.ldg := rfl
@[simp] theorem updSce_cap (s : State) (f : Sce → Sce) : (updSce s f).cap = s.cap := rfl
@[simp] theorem updSce_lc (s : State) (f : Sce → Sce) : (updSce s f).lc = s.lc := rfl
@[simp] theorem updSce_jtag (s : State) (f : Sce → Sce) : (updSce s f).jtag = s.jtag := rfl
@[simp] theorem updSce_tiles (s : State) (f : Sce → Sce) : (updSce s f).tiles = s.tiles := rfl
@[simp] theorem updSce_csis (s : State) (f : Sce → Sce) : (updSce s f).csis = s.csis := rfl
@[simp] theorem updSce_mem (s : State) (f : Sce → Sce) : (updSce s f).mem = s.mem := rfl
@[simp] theorem updSce_clay (s : State) (f : Sce → Sce) : (updSce s f).clay = s.clay := rfl
@[simp] theorem updSce_clayK (s : State) (f : Sce → Sce) : (updSce s f).clayK = s.clayK := rfl
@[simp] theorem updSce_clayZ0 (s : State) (f : Sce → Sce) : (updSce s f).clayZ0 = s.clayZ0 := rfl
@[simp] theorem updSce_clayZ1 (s : State) (f : Sce → Sce) : (updSce s f).clayZ1 = s.clayZ1 := rfl
@[simp] theorem updSce_scc (s : State) (f : Sce → Sce) : (updSce s f).scc = s.scc := rfl
@[simp] theorem updSce_ecc (s : State) (f : Sce → Sce) : (updSce s f).ecc = s.ecc := rfl
@[simp] theorem updSce_sccEcc (s : State) (f : Sce → Sce) : (updSce s f).sccEcc = s.sccEcc := rfl
@[simp] theorem updSce_wiping (s : State) (f : Sce → Sce) : (updSce s f).wiping = s.wiping := rfl
@[simp] theorem updSce_freeK (s : State) (f : Sce → Sce) : (updSce s f).freeK = s.freeK := rfl
@[simp] theorem updSce_pending (s : State) (f : Sce → Sce) : (updSce s f).pending = s.pending := rfl

/-! ### updSed -/

@[simp] theorem updSed_fuses (s : State) (f : Sed → Sed) : (updSed s f).fuses = s.fuses := rfl
@[simp] theorem updSed_boot (s : State) (f : Sed → Sed) : (updSed s f).boot = s.boot := rfl
@[simp] theorem updSed_sel (s : State) (f : Sed → Sed) : (updSed s f).sel = s.sel := rfl
@[simp] theorem updSed_pwr (s : State) (f : Sed → Sed) : (updSed s f).pwr = s.pwr := rfl
@[simp] theorem updSed_clk (s : State) (f : Sed → Sed) : (updSed s f).clk = s.clk := rfl
@[simp] theorem updSed_tim (s : State) (f : Sed → Sed) : (updSed s f).tim = s.tim := rfl
@[simp] theorem updSed_isl (s : State) (f : Sed → Sed) : (updSed s f).isl = s.isl := rfl
@[simp] theorem updSed_outstanding (s : State) (f : Sed → Sed) : (updSed s f).outstanding = s.outstanding := rfl
@[simp] theorem updSed_flt (s : State) (f : Sed → Sed) : (updSed s f).flt = s.flt := rfl
@[simp] theorem updSed_cp (s : State) (f : Sed → Sed) : (updSed s f).cp = s.cp := rfl
@[simp] theorem updSed_win (s : State) (f : Sed → Sed) : (updSed s f).win = s.win := rfl
@[simp] theorem updSed_db (s : State) (f : Sed → Sed) : (updSed s f).db = s.db := rfl
@[simp] theorem updSed_slip0 (s : State) (f : Sed → Sed) : (updSed s f).slip0 = s.slip0 := rfl
@[simp] theorem updSed_slip1 (s : State) (f : Sed → Sed) : (updSed s f).slip1 = s.slip1 := rfl
@[simp] theorem updSed_sns (s : State) (f : Sed → Sed) : (updSed s f).sns = s.sns := rfl
@[simp] theorem updSed_iotXfer (s : State) (f : Sed → Sed) : (updSed s f).iotXfer = s.iotXfer := rfl
@[simp] theorem updSed_iotCfg (s : State) (f : Sed → Sed) : (updSed s f).iotCfg = s.iotCfg := rfl
@[simp] theorem updSed_hp (s : State) (f : Sed → Sed) : (updSed s f).hp = s.hp := rfl
@[simp] theorem updSed_sce (s : State) (f : Sed → Sed) : (updSed s f).sce = s.sce := rfl
@[simp] theorem updSed_sed (s : State) (f : Sed → Sed) : (updSed s f).sed = f s.sed := rfl
@[simp] theorem updSed_qm (s : State) (f : Sed → Sed) : (updSed s f).qm = s.qm := rfl
@[simp] theorem updSed_scs (s : State) (f : Sed → Sed) : (updSed s f).scs = s.scs := rfl
@[simp] theorem updSed_scTmo (s : State) (f : Sed → Sed) : (updSed s f).scTmo = s.scTmo := rfl
@[simp] theorem updSed_engs (s : State) (f : Sed → Sed) : (updSed s f).engs = s.engs := rfl
@[simp] theorem updSed_sats (s : State) (f : Sed → Sed) : (updSed s f).sats = s.sats := rfl
@[simp] theorem updSed_satHit (s : State) (f : Sed → Sed) : (updSed s f).satHit = s.satHit := rfl
@[simp] theorem updSed_ldg (s : State) (f : Sed → Sed) : (updSed s f).ldg = s.ldg := rfl
@[simp] theorem updSed_cap (s : State) (f : Sed → Sed) : (updSed s f).cap = s.cap := rfl
@[simp] theorem updSed_lc (s : State) (f : Sed → Sed) : (updSed s f).lc = s.lc := rfl
@[simp] theorem updSed_jtag (s : State) (f : Sed → Sed) : (updSed s f).jtag = s.jtag := rfl
@[simp] theorem updSed_tiles (s : State) (f : Sed → Sed) : (updSed s f).tiles = s.tiles := rfl
@[simp] theorem updSed_csis (s : State) (f : Sed → Sed) : (updSed s f).csis = s.csis := rfl
@[simp] theorem updSed_mem (s : State) (f : Sed → Sed) : (updSed s f).mem = s.mem := rfl
@[simp] theorem updSed_clay (s : State) (f : Sed → Sed) : (updSed s f).clay = s.clay := rfl
@[simp] theorem updSed_clayK (s : State) (f : Sed → Sed) : (updSed s f).clayK = s.clayK := rfl
@[simp] theorem updSed_clayZ0 (s : State) (f : Sed → Sed) : (updSed s f).clayZ0 = s.clayZ0 := rfl
@[simp] theorem updSed_clayZ1 (s : State) (f : Sed → Sed) : (updSed s f).clayZ1 = s.clayZ1 := rfl
@[simp] theorem updSed_scc (s : State) (f : Sed → Sed) : (updSed s f).scc = s.scc := rfl
@[simp] theorem updSed_ecc (s : State) (f : Sed → Sed) : (updSed s f).ecc = s.ecc := rfl
@[simp] theorem updSed_sccEcc (s : State) (f : Sed → Sed) : (updSed s f).sccEcc = s.sccEcc := rfl
@[simp] theorem updSed_wiping (s : State) (f : Sed → Sed) : (updSed s f).wiping = s.wiping := rfl
@[simp] theorem updSed_freeK (s : State) (f : Sed → Sed) : (updSed s f).freeK = s.freeK := rfl
@[simp] theorem updSed_pending (s : State) (f : Sed → Sed) : (updSed s f).pending = s.pending := rfl

/-! ### updQm -/

@[simp] theorem updQm_fuses (s : State) (f : Qm → Qm) : (updQm s f).fuses = s.fuses := rfl
@[simp] theorem updQm_boot (s : State) (f : Qm → Qm) : (updQm s f).boot = s.boot := rfl
@[simp] theorem updQm_sel (s : State) (f : Qm → Qm) : (updQm s f).sel = s.sel := rfl
@[simp] theorem updQm_pwr (s : State) (f : Qm → Qm) : (updQm s f).pwr = s.pwr := rfl
@[simp] theorem updQm_clk (s : State) (f : Qm → Qm) : (updQm s f).clk = s.clk := rfl
@[simp] theorem updQm_tim (s : State) (f : Qm → Qm) : (updQm s f).tim = s.tim := rfl
@[simp] theorem updQm_isl (s : State) (f : Qm → Qm) : (updQm s f).isl = s.isl := rfl
@[simp] theorem updQm_outstanding (s : State) (f : Qm → Qm) : (updQm s f).outstanding = s.outstanding := rfl
@[simp] theorem updQm_flt (s : State) (f : Qm → Qm) : (updQm s f).flt = s.flt := rfl
@[simp] theorem updQm_cp (s : State) (f : Qm → Qm) : (updQm s f).cp = s.cp := rfl
@[simp] theorem updQm_win (s : State) (f : Qm → Qm) : (updQm s f).win = s.win := rfl
@[simp] theorem updQm_db (s : State) (f : Qm → Qm) : (updQm s f).db = s.db := rfl
@[simp] theorem updQm_slip0 (s : State) (f : Qm → Qm) : (updQm s f).slip0 = s.slip0 := rfl
@[simp] theorem updQm_slip1 (s : State) (f : Qm → Qm) : (updQm s f).slip1 = s.slip1 := rfl
@[simp] theorem updQm_sns (s : State) (f : Qm → Qm) : (updQm s f).sns = s.sns := rfl
@[simp] theorem updQm_iotXfer (s : State) (f : Qm → Qm) : (updQm s f).iotXfer = s.iotXfer := rfl
@[simp] theorem updQm_iotCfg (s : State) (f : Qm → Qm) : (updQm s f).iotCfg = s.iotCfg := rfl
@[simp] theorem updQm_hp (s : State) (f : Qm → Qm) : (updQm s f).hp = s.hp := rfl
@[simp] theorem updQm_sce (s : State) (f : Qm → Qm) : (updQm s f).sce = s.sce := rfl
@[simp] theorem updQm_sed (s : State) (f : Qm → Qm) : (updQm s f).sed = s.sed := rfl
@[simp] theorem updQm_qm (s : State) (f : Qm → Qm) : (updQm s f).qm = f s.qm := rfl
@[simp] theorem updQm_scs (s : State) (f : Qm → Qm) : (updQm s f).scs = s.scs := rfl
@[simp] theorem updQm_scTmo (s : State) (f : Qm → Qm) : (updQm s f).scTmo = s.scTmo := rfl
@[simp] theorem updQm_engs (s : State) (f : Qm → Qm) : (updQm s f).engs = s.engs := rfl
@[simp] theorem updQm_sats (s : State) (f : Qm → Qm) : (updQm s f).sats = s.sats := rfl
@[simp] theorem updQm_satHit (s : State) (f : Qm → Qm) : (updQm s f).satHit = s.satHit := rfl
@[simp] theorem updQm_ldg (s : State) (f : Qm → Qm) : (updQm s f).ldg = s.ldg := rfl
@[simp] theorem updQm_cap (s : State) (f : Qm → Qm) : (updQm s f).cap = s.cap := rfl
@[simp] theorem updQm_lc (s : State) (f : Qm → Qm) : (updQm s f).lc = s.lc := rfl
@[simp] theorem updQm_jtag (s : State) (f : Qm → Qm) : (updQm s f).jtag = s.jtag := rfl
@[simp] theorem updQm_tiles (s : State) (f : Qm → Qm) : (updQm s f).tiles = s.tiles := rfl
@[simp] theorem updQm_csis (s : State) (f : Qm → Qm) : (updQm s f).csis = s.csis := rfl
@[simp] theorem updQm_mem (s : State) (f : Qm → Qm) : (updQm s f).mem = s.mem := rfl
@[simp] theorem updQm_clay (s : State) (f : Qm → Qm) : (updQm s f).clay = s.clay := rfl
@[simp] theorem updQm_clayK (s : State) (f : Qm → Qm) : (updQm s f).clayK = s.clayK := rfl
@[simp] theorem updQm_clayZ0 (s : State) (f : Qm → Qm) : (updQm s f).clayZ0 = s.clayZ0 := rfl
@[simp] theorem updQm_clayZ1 (s : State) (f : Qm → Qm) : (updQm s f).clayZ1 = s.clayZ1 := rfl
@[simp] theorem updQm_scc (s : State) (f : Qm → Qm) : (updQm s f).scc = s.scc := rfl
@[simp] theorem updQm_ecc (s : State) (f : Qm → Qm) : (updQm s f).ecc = s.ecc := rfl
@[simp] theorem updQm_sccEcc (s : State) (f : Qm → Qm) : (updQm s f).sccEcc = s.sccEcc := rfl
@[simp] theorem updQm_wiping (s : State) (f : Qm → Qm) : (updQm s f).wiping = s.wiping := rfl
@[simp] theorem updQm_freeK (s : State) (f : Qm → Qm) : (updQm s f).freeK = s.freeK := rfl
@[simp] theorem updQm_pending (s : State) (f : Qm → Qm) : (updQm s f).pending = s.pending := rfl

/-! ### updLdg -/

@[simp] theorem updLdg_fuses (s : State) (f : Ldg → Ldg) : (updLdg s f).fuses = s.fuses := rfl
@[simp] theorem updLdg_boot (s : State) (f : Ldg → Ldg) : (updLdg s f).boot = s.boot := rfl
@[simp] theorem updLdg_sel (s : State) (f : Ldg → Ldg) : (updLdg s f).sel = s.sel := rfl
@[simp] theorem updLdg_pwr (s : State) (f : Ldg → Ldg) : (updLdg s f).pwr = s.pwr := rfl
@[simp] theorem updLdg_clk (s : State) (f : Ldg → Ldg) : (updLdg s f).clk = s.clk := rfl
@[simp] theorem updLdg_tim (s : State) (f : Ldg → Ldg) : (updLdg s f).tim = s.tim := rfl
@[simp] theorem updLdg_isl (s : State) (f : Ldg → Ldg) : (updLdg s f).isl = s.isl := rfl
@[simp] theorem updLdg_outstanding (s : State) (f : Ldg → Ldg) : (updLdg s f).outstanding = s.outstanding := rfl
@[simp] theorem updLdg_flt (s : State) (f : Ldg → Ldg) : (updLdg s f).flt = s.flt := rfl
@[simp] theorem updLdg_cp (s : State) (f : Ldg → Ldg) : (updLdg s f).cp = s.cp := rfl
@[simp] theorem updLdg_win (s : State) (f : Ldg → Ldg) : (updLdg s f).win = s.win := rfl
@[simp] theorem updLdg_db (s : State) (f : Ldg → Ldg) : (updLdg s f).db = s.db := rfl
@[simp] theorem updLdg_slip0 (s : State) (f : Ldg → Ldg) : (updLdg s f).slip0 = s.slip0 := rfl
@[simp] theorem updLdg_slip1 (s : State) (f : Ldg → Ldg) : (updLdg s f).slip1 = s.slip1 := rfl
@[simp] theorem updLdg_sns (s : State) (f : Ldg → Ldg) : (updLdg s f).sns = s.sns := rfl
@[simp] theorem updLdg_iotXfer (s : State) (f : Ldg → Ldg) : (updLdg s f).iotXfer = s.iotXfer := rfl
@[simp] theorem updLdg_iotCfg (s : State) (f : Ldg → Ldg) : (updLdg s f).iotCfg = s.iotCfg := rfl
@[simp] theorem updLdg_hp (s : State) (f : Ldg → Ldg) : (updLdg s f).hp = s.hp := rfl
@[simp] theorem updLdg_sce (s : State) (f : Ldg → Ldg) : (updLdg s f).sce = s.sce := rfl
@[simp] theorem updLdg_sed (s : State) (f : Ldg → Ldg) : (updLdg s f).sed = s.sed := rfl
@[simp] theorem updLdg_qm (s : State) (f : Ldg → Ldg) : (updLdg s f).qm = s.qm := rfl
@[simp] theorem updLdg_scs (s : State) (f : Ldg → Ldg) : (updLdg s f).scs = s.scs := rfl
@[simp] theorem updLdg_scTmo (s : State) (f : Ldg → Ldg) : (updLdg s f).scTmo = s.scTmo := rfl
@[simp] theorem updLdg_engs (s : State) (f : Ldg → Ldg) : (updLdg s f).engs = s.engs := rfl
@[simp] theorem updLdg_sats (s : State) (f : Ldg → Ldg) : (updLdg s f).sats = s.sats := rfl
@[simp] theorem updLdg_satHit (s : State) (f : Ldg → Ldg) : (updLdg s f).satHit = s.satHit := rfl
@[simp] theorem updLdg_ldg (s : State) (f : Ldg → Ldg) : (updLdg s f).ldg = f s.ldg := rfl
@[simp] theorem updLdg_cap (s : State) (f : Ldg → Ldg) : (updLdg s f).cap = s.cap := rfl
@[simp] theorem updLdg_lc (s : State) (f : Ldg → Ldg) : (updLdg s f).lc = s.lc := rfl
@[simp] theorem updLdg_jtag (s : State) (f : Ldg → Ldg) : (updLdg s f).jtag = s.jtag := rfl
@[simp] theorem updLdg_tiles (s : State) (f : Ldg → Ldg) : (updLdg s f).tiles = s.tiles := rfl
@[simp] theorem updLdg_csis (s : State) (f : Ldg → Ldg) : (updLdg s f).csis = s.csis := rfl
@[simp] theorem updLdg_mem (s : State) (f : Ldg → Ldg) : (updLdg s f).mem = s.mem := rfl
@[simp] theorem updLdg_clay (s : State) (f : Ldg → Ldg) : (updLdg s f).clay = s.clay := rfl
@[simp] theorem updLdg_clayK (s : State) (f : Ldg → Ldg) : (updLdg s f).clayK = s.clayK := rfl
@[simp] theorem updLdg_clayZ0 (s : State) (f : Ldg → Ldg) : (updLdg s f).clayZ0 = s.clayZ0 := rfl
@[simp] theorem updLdg_clayZ1 (s : State) (f : Ldg → Ldg) : (updLdg s f).clayZ1 = s.clayZ1 := rfl
@[simp] theorem updLdg_scc (s : State) (f : Ldg → Ldg) : (updLdg s f).scc = s.scc := rfl
@[simp] theorem updLdg_ecc (s : State) (f : Ldg → Ldg) : (updLdg s f).ecc = s.ecc := rfl
@[simp] theorem updLdg_sccEcc (s : State) (f : Ldg → Ldg) : (updLdg s f).sccEcc = s.sccEcc := rfl
@[simp] theorem updLdg_wiping (s : State) (f : Ldg → Ldg) : (updLdg s f).wiping = s.wiping := rfl
@[simp] theorem updLdg_freeK (s : State) (f : Ldg → Ldg) : (updLdg s f).freeK = s.freeK := rfl
@[simp] theorem updLdg_pending (s : State) (f : Ldg → Ldg) : (updLdg s f).pending = s.pending := rfl

/-! ### updCap -/

@[simp] theorem updCap_fuses (s : State) (f : Cap → Cap) : (updCap s f).fuses = s.fuses := rfl
@[simp] theorem updCap_boot (s : State) (f : Cap → Cap) : (updCap s f).boot = s.boot := rfl
@[simp] theorem updCap_sel (s : State) (f : Cap → Cap) : (updCap s f).sel = s.sel := rfl
@[simp] theorem updCap_pwr (s : State) (f : Cap → Cap) : (updCap s f).pwr = s.pwr := rfl
@[simp] theorem updCap_clk (s : State) (f : Cap → Cap) : (updCap s f).clk = s.clk := rfl
@[simp] theorem updCap_tim (s : State) (f : Cap → Cap) : (updCap s f).tim = s.tim := rfl
@[simp] theorem updCap_isl (s : State) (f : Cap → Cap) : (updCap s f).isl = s.isl := rfl
@[simp] theorem updCap_outstanding (s : State) (f : Cap → Cap) : (updCap s f).outstanding = s.outstanding := rfl
@[simp] theorem updCap_flt (s : State) (f : Cap → Cap) : (updCap s f).flt = s.flt := rfl
@[simp] theorem updCap_cp (s : State) (f : Cap → Cap) : (updCap s f).cp = s.cp := rfl
@[simp] theorem updCap_win (s : State) (f : Cap → Cap) : (updCap s f).win = s.win := rfl
@[simp] theorem updCap_db (s : State) (f : Cap → Cap) : (updCap s f).db = s.db := rfl
@[simp] theorem updCap_slip0 (s : State) (f : Cap → Cap) : (updCap s f).slip0 = s.slip0 := rfl
@[simp] theorem updCap_slip1 (s : State) (f : Cap → Cap) : (updCap s f).slip1 = s.slip1 := rfl
@[simp] theorem updCap_sns (s : State) (f : Cap → Cap) : (updCap s f).sns = s.sns := rfl
@[simp] theorem updCap_iotXfer (s : State) (f : Cap → Cap) : (updCap s f).iotXfer = s.iotXfer := rfl
@[simp] theorem updCap_iotCfg (s : State) (f : Cap → Cap) : (updCap s f).iotCfg = s.iotCfg := rfl
@[simp] theorem updCap_hp (s : State) (f : Cap → Cap) : (updCap s f).hp = s.hp := rfl
@[simp] theorem updCap_sce (s : State) (f : Cap → Cap) : (updCap s f).sce = s.sce := rfl
@[simp] theorem updCap_sed (s : State) (f : Cap → Cap) : (updCap s f).sed = s.sed := rfl
@[simp] theorem updCap_qm (s : State) (f : Cap → Cap) : (updCap s f).qm = s.qm := rfl
@[simp] theorem updCap_scs (s : State) (f : Cap → Cap) : (updCap s f).scs = s.scs := rfl
@[simp] theorem updCap_scTmo (s : State) (f : Cap → Cap) : (updCap s f).scTmo = s.scTmo := rfl
@[simp] theorem updCap_engs (s : State) (f : Cap → Cap) : (updCap s f).engs = s.engs := rfl
@[simp] theorem updCap_sats (s : State) (f : Cap → Cap) : (updCap s f).sats = s.sats := rfl
@[simp] theorem updCap_satHit (s : State) (f : Cap → Cap) : (updCap s f).satHit = s.satHit := rfl
@[simp] theorem updCap_ldg (s : State) (f : Cap → Cap) : (updCap s f).ldg = s.ldg := rfl
@[simp] theorem updCap_cap (s : State) (f : Cap → Cap) : (updCap s f).cap = f s.cap := rfl
@[simp] theorem updCap_lc (s : State) (f : Cap → Cap) : (updCap s f).lc = s.lc := rfl
@[simp] theorem updCap_jtag (s : State) (f : Cap → Cap) : (updCap s f).jtag = s.jtag := rfl
@[simp] theorem updCap_tiles (s : State) (f : Cap → Cap) : (updCap s f).tiles = s.tiles := rfl
@[simp] theorem updCap_csis (s : State) (f : Cap → Cap) : (updCap s f).csis = s.csis := rfl
@[simp] theorem updCap_mem (s : State) (f : Cap → Cap) : (updCap s f).mem = s.mem := rfl
@[simp] theorem updCap_clay (s : State) (f : Cap → Cap) : (updCap s f).clay = s.clay := rfl
@[simp] theorem updCap_clayK (s : State) (f : Cap → Cap) : (updCap s f).clayK = s.clayK := rfl
@[simp] theorem updCap_clayZ0 (s : State) (f : Cap → Cap) : (updCap s f).clayZ0 = s.clayZ0 := rfl
@[simp] theorem updCap_clayZ1 (s : State) (f : Cap → Cap) : (updCap s f).clayZ1 = s.clayZ1 := rfl
@[simp] theorem updCap_scc (s : State) (f : Cap → Cap) : (updCap s f).scc = s.scc := rfl
@[simp] theorem updCap_ecc (s : State) (f : Cap → Cap) : (updCap s f).ecc = s.ecc := rfl
@[simp] theorem updCap_sccEcc (s : State) (f : Cap → Cap) : (updCap s f).sccEcc = s.sccEcc := rfl
@[simp] theorem updCap_wiping (s : State) (f : Cap → Cap) : (updCap s f).wiping = s.wiping := rfl
@[simp] theorem updCap_freeK (s : State) (f : Cap → Cap) : (updCap s f).freeK = s.freeK := rfl
@[simp] theorem updCap_pending (s : State) (f : Cap → Cap) : (updCap s f).pending = s.pending := rfl

/-! ### updLc -/

@[simp] theorem updLc_fuses (s : State) (f : Lc → Lc) : (updLc s f).fuses = s.fuses := rfl
@[simp] theorem updLc_boot (s : State) (f : Lc → Lc) : (updLc s f).boot = s.boot := rfl
@[simp] theorem updLc_sel (s : State) (f : Lc → Lc) : (updLc s f).sel = s.sel := rfl
@[simp] theorem updLc_pwr (s : State) (f : Lc → Lc) : (updLc s f).pwr = s.pwr := rfl
@[simp] theorem updLc_clk (s : State) (f : Lc → Lc) : (updLc s f).clk = s.clk := rfl
@[simp] theorem updLc_tim (s : State) (f : Lc → Lc) : (updLc s f).tim = s.tim := rfl
@[simp] theorem updLc_isl (s : State) (f : Lc → Lc) : (updLc s f).isl = s.isl := rfl
@[simp] theorem updLc_outstanding (s : State) (f : Lc → Lc) : (updLc s f).outstanding = s.outstanding := rfl
@[simp] theorem updLc_flt (s : State) (f : Lc → Lc) : (updLc s f).flt = s.flt := rfl
@[simp] theorem updLc_cp (s : State) (f : Lc → Lc) : (updLc s f).cp = s.cp := rfl
@[simp] theorem updLc_win (s : State) (f : Lc → Lc) : (updLc s f).win = s.win := rfl
@[simp] theorem updLc_db (s : State) (f : Lc → Lc) : (updLc s f).db = s.db := rfl
@[simp] theorem updLc_slip0 (s : State) (f : Lc → Lc) : (updLc s f).slip0 = s.slip0 := rfl
@[simp] theorem updLc_slip1 (s : State) (f : Lc → Lc) : (updLc s f).slip1 = s.slip1 := rfl
@[simp] theorem updLc_sns (s : State) (f : Lc → Lc) : (updLc s f).sns = s.sns := rfl
@[simp] theorem updLc_iotXfer (s : State) (f : Lc → Lc) : (updLc s f).iotXfer = s.iotXfer := rfl
@[simp] theorem updLc_iotCfg (s : State) (f : Lc → Lc) : (updLc s f).iotCfg = s.iotCfg := rfl
@[simp] theorem updLc_hp (s : State) (f : Lc → Lc) : (updLc s f).hp = s.hp := rfl
@[simp] theorem updLc_sce (s : State) (f : Lc → Lc) : (updLc s f).sce = s.sce := rfl
@[simp] theorem updLc_sed (s : State) (f : Lc → Lc) : (updLc s f).sed = s.sed := rfl
@[simp] theorem updLc_qm (s : State) (f : Lc → Lc) : (updLc s f).qm = s.qm := rfl
@[simp] theorem updLc_scs (s : State) (f : Lc → Lc) : (updLc s f).scs = s.scs := rfl
@[simp] theorem updLc_scTmo (s : State) (f : Lc → Lc) : (updLc s f).scTmo = s.scTmo := rfl
@[simp] theorem updLc_engs (s : State) (f : Lc → Lc) : (updLc s f).engs = s.engs := rfl
@[simp] theorem updLc_sats (s : State) (f : Lc → Lc) : (updLc s f).sats = s.sats := rfl
@[simp] theorem updLc_satHit (s : State) (f : Lc → Lc) : (updLc s f).satHit = s.satHit := rfl
@[simp] theorem updLc_ldg (s : State) (f : Lc → Lc) : (updLc s f).ldg = s.ldg := rfl
@[simp] theorem updLc_cap (s : State) (f : Lc → Lc) : (updLc s f).cap = s.cap := rfl
@[simp] theorem updLc_lc (s : State) (f : Lc → Lc) : (updLc s f).lc = f s.lc := rfl
@[simp] theorem updLc_jtag (s : State) (f : Lc → Lc) : (updLc s f).jtag = s.jtag := rfl
@[simp] theorem updLc_tiles (s : State) (f : Lc → Lc) : (updLc s f).tiles = s.tiles := rfl
@[simp] theorem updLc_csis (s : State) (f : Lc → Lc) : (updLc s f).csis = s.csis := rfl
@[simp] theorem updLc_mem (s : State) (f : Lc → Lc) : (updLc s f).mem = s.mem := rfl
@[simp] theorem updLc_clay (s : State) (f : Lc → Lc) : (updLc s f).clay = s.clay := rfl
@[simp] theorem updLc_clayK (s : State) (f : Lc → Lc) : (updLc s f).clayK = s.clayK := rfl
@[simp] theorem updLc_clayZ0 (s : State) (f : Lc → Lc) : (updLc s f).clayZ0 = s.clayZ0 := rfl
@[simp] theorem updLc_clayZ1 (s : State) (f : Lc → Lc) : (updLc s f).clayZ1 = s.clayZ1 := rfl
@[simp] theorem updLc_scc (s : State) (f : Lc → Lc) : (updLc s f).scc = s.scc := rfl
@[simp] theorem updLc_ecc (s : State) (f : Lc → Lc) : (updLc s f).ecc = s.ecc := rfl
@[simp] theorem updLc_sccEcc (s : State) (f : Lc → Lc) : (updLc s f).sccEcc = s.sccEcc := rfl
@[simp] theorem updLc_wiping (s : State) (f : Lc → Lc) : (updLc s f).wiping = s.wiping := rfl
@[simp] theorem updLc_freeK (s : State) (f : Lc → Lc) : (updLc s f).freeK = s.freeK := rfl
@[simp] theorem updLc_pending (s : State) (f : Lc → Lc) : (updLc s f).pending = s.pending := rfl

/-! ### updWin -/

@[simp] theorem updWin_fuses (s : State) (f : Win → Win) : (updWin s f).fuses = s.fuses := rfl
@[simp] theorem updWin_boot (s : State) (f : Win → Win) : (updWin s f).boot = s.boot := rfl
@[simp] theorem updWin_sel (s : State) (f : Win → Win) : (updWin s f).sel = s.sel := rfl
@[simp] theorem updWin_pwr (s : State) (f : Win → Win) : (updWin s f).pwr = s.pwr := rfl
@[simp] theorem updWin_clk (s : State) (f : Win → Win) : (updWin s f).clk = s.clk := rfl
@[simp] theorem updWin_tim (s : State) (f : Win → Win) : (updWin s f).tim = s.tim := rfl
@[simp] theorem updWin_isl (s : State) (f : Win → Win) : (updWin s f).isl = s.isl := rfl
@[simp] theorem updWin_outstanding (s : State) (f : Win → Win) : (updWin s f).outstanding = s.outstanding := rfl
@[simp] theorem updWin_flt (s : State) (f : Win → Win) : (updWin s f).flt = s.flt := rfl
@[simp] theorem updWin_cp (s : State) (f : Win → Win) : (updWin s f).cp = s.cp := rfl
@[simp] theorem updWin_win (s : State) (f : Win → Win) : (updWin s f).win = f s.win := rfl
@[simp] theorem updWin_db (s : State) (f : Win → Win) : (updWin s f).db = s.db := rfl
@[simp] theorem updWin_slip0 (s : State) (f : Win → Win) : (updWin s f).slip0 = s.slip0 := rfl
@[simp] theorem updWin_slip1 (s : State) (f : Win → Win) : (updWin s f).slip1 = s.slip1 := rfl
@[simp] theorem updWin_sns (s : State) (f : Win → Win) : (updWin s f).sns = s.sns := rfl
@[simp] theorem updWin_iotXfer (s : State) (f : Win → Win) : (updWin s f).iotXfer = s.iotXfer := rfl
@[simp] theorem updWin_iotCfg (s : State) (f : Win → Win) : (updWin s f).iotCfg = s.iotCfg := rfl
@[simp] theorem updWin_hp (s : State) (f : Win → Win) : (updWin s f).hp = s.hp := rfl
@[simp] theorem updWin_sce (s : State) (f : Win → Win) : (updWin s f).sce = s.sce := rfl
@[simp] theorem updWin_sed (s : State) (f : Win → Win) : (updWin s f).sed = s.sed := rfl
@[simp] theorem updWin_qm (s : State) (f : Win → Win) : (updWin s f).qm = s.qm := rfl
@[simp] theorem updWin_scs (s : State) (f : Win → Win) : (updWin s f).scs = s.scs := rfl
@[simp] theorem updWin_scTmo (s : State) (f : Win → Win) : (updWin s f).scTmo = s.scTmo := rfl
@[simp] theorem updWin_engs (s : State) (f : Win → Win) : (updWin s f).engs = s.engs := rfl
@[simp] theorem updWin_sats (s : State) (f : Win → Win) : (updWin s f).sats = s.sats := rfl
@[simp] theorem updWin_satHit (s : State) (f : Win → Win) : (updWin s f).satHit = s.satHit := rfl
@[simp] theorem updWin_ldg (s : State) (f : Win → Win) : (updWin s f).ldg = s.ldg := rfl
@[simp] theorem updWin_cap (s : State) (f : Win → Win) : (updWin s f).cap = s.cap := rfl
@[simp] theorem updWin_lc (s : State) (f : Win → Win) : (updWin s f).lc = s.lc := rfl
@[simp] theorem updWin_jtag (s : State) (f : Win → Win) : (updWin s f).jtag = s.jtag := rfl
@[simp] theorem updWin_tiles (s : State) (f : Win → Win) : (updWin s f).tiles = s.tiles := rfl
@[simp] theorem updWin_csis (s : State) (f : Win → Win) : (updWin s f).csis = s.csis := rfl
@[simp] theorem updWin_mem (s : State) (f : Win → Win) : (updWin s f).mem = s.mem := rfl
@[simp] theorem updWin_clay (s : State) (f : Win → Win) : (updWin s f).clay = s.clay := rfl
@[simp] theorem updWin_clayK (s : State) (f : Win → Win) : (updWin s f).clayK = s.clayK := rfl
@[simp] theorem updWin_clayZ0 (s : State) (f : Win → Win) : (updWin s f).clayZ0 = s.clayZ0 := rfl
@[simp] theorem updWin_clayZ1 (s : State) (f : Win → Win) : (updWin s f).clayZ1 = s.clayZ1 := rfl
@[simp] theorem updWin_scc (s : State) (f : Win → Win) : (updWin s f).scc = s.scc := rfl
@[simp] theorem updWin_ecc (s : State) (f : Win → Win) : (updWin s f).ecc = s.ecc := rfl
@[simp] theorem updWin_sccEcc (s : State) (f : Win → Win) : (updWin s f).sccEcc = s.sccEcc := rfl
@[simp] theorem updWin_wiping (s : State) (f : Win → Win) : (updWin s f).wiping = s.wiping := rfl
@[simp] theorem updWin_freeK (s : State) (f : Win → Win) : (updWin s f).freeK = s.freeK := rfl
@[simp] theorem updWin_pending (s : State) (f : Win → Win) : (updWin s f).pending = s.pending := rfl

/-! ### updDb -/

@[simp] theorem updDb_fuses (s : State) (f : Db → Db) : (updDb s f).fuses = s.fuses := rfl
@[simp] theorem updDb_boot (s : State) (f : Db → Db) : (updDb s f).boot = s.boot := rfl
@[simp] theorem updDb_sel (s : State) (f : Db → Db) : (updDb s f).sel = s.sel := rfl
@[simp] theorem updDb_pwr (s : State) (f : Db → Db) : (updDb s f).pwr = s.pwr := rfl
@[simp] theorem updDb_clk (s : State) (f : Db → Db) : (updDb s f).clk = s.clk := rfl
@[simp] theorem updDb_tim (s : State) (f : Db → Db) : (updDb s f).tim = s.tim := rfl
@[simp] theorem updDb_isl (s : State) (f : Db → Db) : (updDb s f).isl = s.isl := rfl
@[simp] theorem updDb_outstanding (s : State) (f : Db → Db) : (updDb s f).outstanding = s.outstanding := rfl
@[simp] theorem updDb_flt (s : State) (f : Db → Db) : (updDb s f).flt = s.flt := rfl
@[simp] theorem updDb_cp (s : State) (f : Db → Db) : (updDb s f).cp = s.cp := rfl
@[simp] theorem updDb_win (s : State) (f : Db → Db) : (updDb s f).win = s.win := rfl
@[simp] theorem updDb_db (s : State) (f : Db → Db) : (updDb s f).db = f s.db := rfl
@[simp] theorem updDb_slip0 (s : State) (f : Db → Db) : (updDb s f).slip0 = s.slip0 := rfl
@[simp] theorem updDb_slip1 (s : State) (f : Db → Db) : (updDb s f).slip1 = s.slip1 := rfl
@[simp] theorem updDb_sns (s : State) (f : Db → Db) : (updDb s f).sns = s.sns := rfl
@[simp] theorem updDb_iotXfer (s : State) (f : Db → Db) : (updDb s f).iotXfer = s.iotXfer := rfl
@[simp] theorem updDb_iotCfg (s : State) (f : Db → Db) : (updDb s f).iotCfg = s.iotCfg := rfl
@[simp] theorem updDb_hp (s : State) (f : Db → Db) : (updDb s f).hp = s.hp := rfl
@[simp] theorem updDb_sce (s : State) (f : Db → Db) : (updDb s f).sce = s.sce := rfl
@[simp] theorem updDb_sed (s : State) (f : Db → Db) : (updDb s f).sed = s.sed := rfl
@[simp] theorem updDb_qm (s : State) (f : Db → Db) : (updDb s f).qm = s.qm := rfl
@[simp] theorem updDb_scs (s : State) (f : Db → Db) : (updDb s f).scs = s.scs := rfl
@[simp] theorem updDb_scTmo (s : State) (f : Db → Db) : (updDb s f).scTmo = s.scTmo := rfl
@[simp] theorem updDb_engs (s : State) (f : Db → Db) : (updDb s f).engs = s.engs := rfl
@[simp] theorem updDb_sats (s : State) (f : Db → Db) : (updDb s f).sats = s.sats := rfl
@[simp] theorem updDb_satHit (s : State) (f : Db → Db) : (updDb s f).satHit = s.satHit := rfl
@[simp] theorem updDb_ldg (s : State) (f : Db → Db) : (updDb s f).ldg = s.ldg := rfl
@[simp] theorem updDb_cap (s : State) (f : Db → Db) : (updDb s f).cap = s.cap := rfl
@[simp] theorem updDb_lc (s : State) (f : Db → Db) : (updDb s f).lc = s.lc := rfl
@[simp] theorem updDb_jtag (s : State) (f : Db → Db) : (updDb s f).jtag = s.jtag := rfl
@[simp] theorem updDb_tiles (s : State) (f : Db → Db) : (updDb s f).tiles = s.tiles := rfl
@[simp] theorem updDb_csis (s : State) (f : Db → Db) : (updDb s f).csis = s.csis := rfl
@[simp] theorem updDb_mem (s : State) (f : Db → Db) : (updDb s f).mem = s.mem := rfl
@[simp] theorem updDb_clay (s : State) (f : Db → Db) : (updDb s f).clay = s.clay := rfl
@[simp] theorem updDb_clayK (s : State) (f : Db → Db) : (updDb s f).clayK = s.clayK := rfl
@[simp] theorem updDb_clayZ0 (s : State) (f : Db → Db) : (updDb s f).clayZ0 = s.clayZ0 := rfl
@[simp] theorem updDb_clayZ1 (s : State) (f : Db → Db) : (updDb s f).clayZ1 = s.clayZ1 := rfl
@[simp] theorem updDb_scc (s : State) (f : Db → Db) : (updDb s f).scc = s.scc := rfl
@[simp] theorem updDb_ecc (s : State) (f : Db → Db) : (updDb s f).ecc = s.ecc := rfl
@[simp] theorem updDb_sccEcc (s : State) (f : Db → Db) : (updDb s f).sccEcc = s.sccEcc := rfl
@[simp] theorem updDb_wiping (s : State) (f : Db → Db) : (updDb s f).wiping = s.wiping := rfl
@[simp] theorem updDb_freeK (s : State) (f : Db → Db) : (updDb s f).freeK = s.freeK := rfl
@[simp] theorem updDb_pending (s : State) (f : Db → Db) : (updDb s f).pending = s.pending := rfl

/-! ### updTap -/

@[simp] theorem updTap_fuses (s : State) (f : Jtag → Jtag) : (updTap s f).fuses = s.fuses := rfl
@[simp] theorem updTap_boot (s : State) (f : Jtag → Jtag) : (updTap s f).boot = s.boot := rfl
@[simp] theorem updTap_sel (s : State) (f : Jtag → Jtag) : (updTap s f).sel = s.sel := rfl
@[simp] theorem updTap_pwr (s : State) (f : Jtag → Jtag) : (updTap s f).pwr = s.pwr := rfl
@[simp] theorem updTap_clk (s : State) (f : Jtag → Jtag) : (updTap s f).clk = s.clk := rfl
@[simp] theorem updTap_tim (s : State) (f : Jtag → Jtag) : (updTap s f).tim = s.tim := rfl
@[simp] theorem updTap_isl (s : State) (f : Jtag → Jtag) : (updTap s f).isl = s.isl := rfl
@[simp] theorem updTap_outstanding (s : State) (f : Jtag → Jtag) : (updTap s f).outstanding = s.outstanding := rfl
@[simp] theorem updTap_flt (s : State) (f : Jtag → Jtag) : (updTap s f).flt = s.flt := rfl
@[simp] theorem updTap_cp (s : State) (f : Jtag → Jtag) : (updTap s f).cp = s.cp := rfl
@[simp] theorem updTap_win (s : State) (f : Jtag → Jtag) : (updTap s f).win = s.win := rfl
@[simp] theorem updTap_db (s : State) (f : Jtag → Jtag) : (updTap s f).db = s.db := rfl
@[simp] theorem updTap_slip0 (s : State) (f : Jtag → Jtag) : (updTap s f).slip0 = s.slip0 := rfl
@[simp] theorem updTap_slip1 (s : State) (f : Jtag → Jtag) : (updTap s f).slip1 = s.slip1 := rfl
@[simp] theorem updTap_sns (s : State) (f : Jtag → Jtag) : (updTap s f).sns = s.sns := rfl
@[simp] theorem updTap_iotXfer (s : State) (f : Jtag → Jtag) : (updTap s f).iotXfer = s.iotXfer := rfl
@[simp] theorem updTap_iotCfg (s : State) (f : Jtag → Jtag) : (updTap s f).iotCfg = s.iotCfg := rfl
@[simp] theorem updTap_hp (s : State) (f : Jtag → Jtag) : (updTap s f).hp = s.hp := rfl
@[simp] theorem updTap_sce (s : State) (f : Jtag → Jtag) : (updTap s f).sce = s.sce := rfl
@[simp] theorem updTap_sed (s : State) (f : Jtag → Jtag) : (updTap s f).sed = s.sed := rfl
@[simp] theorem updTap_qm (s : State) (f : Jtag → Jtag) : (updTap s f).qm = s.qm := rfl
@[simp] theorem updTap_scs (s : State) (f : Jtag → Jtag) : (updTap s f).scs = s.scs := rfl
@[simp] theorem updTap_scTmo (s : State) (f : Jtag → Jtag) : (updTap s f).scTmo = s.scTmo := rfl
@[simp] theorem updTap_engs (s : State) (f : Jtag → Jtag) : (updTap s f).engs = s.engs := rfl
@[simp] theorem updTap_sats (s : State) (f : Jtag → Jtag) : (updTap s f).sats = s.sats := rfl
@[simp] theorem updTap_satHit (s : State) (f : Jtag → Jtag) : (updTap s f).satHit = s.satHit := rfl
@[simp] theorem updTap_ldg (s : State) (f : Jtag → Jtag) : (updTap s f).ldg = s.ldg := rfl
@[simp] theorem updTap_cap (s : State) (f : Jtag → Jtag) : (updTap s f).cap = s.cap := rfl
@[simp] theorem updTap_lc (s : State) (f : Jtag → Jtag) : (updTap s f).lc = s.lc := rfl
@[simp] theorem updTap_jtag (s : State) (f : Jtag → Jtag) : (updTap s f).jtag = f s.jtag := rfl
@[simp] theorem updTap_tiles (s : State) (f : Jtag → Jtag) : (updTap s f).tiles = s.tiles := rfl
@[simp] theorem updTap_csis (s : State) (f : Jtag → Jtag) : (updTap s f).csis = s.csis := rfl
@[simp] theorem updTap_mem (s : State) (f : Jtag → Jtag) : (updTap s f).mem = s.mem := rfl
@[simp] theorem updTap_clay (s : State) (f : Jtag → Jtag) : (updTap s f).clay = s.clay := rfl
@[simp] theorem updTap_clayK (s : State) (f : Jtag → Jtag) : (updTap s f).clayK = s.clayK := rfl
@[simp] theorem updTap_clayZ0 (s : State) (f : Jtag → Jtag) : (updTap s f).clayZ0 = s.clayZ0 := rfl
@[simp] theorem updTap_clayZ1 (s : State) (f : Jtag → Jtag) : (updTap s f).clayZ1 = s.clayZ1 := rfl
@[simp] theorem updTap_scc (s : State) (f : Jtag → Jtag) : (updTap s f).scc = s.scc := rfl
@[simp] theorem updTap_ecc (s : State) (f : Jtag → Jtag) : (updTap s f).ecc = s.ecc := rfl
@[simp] theorem updTap_sccEcc (s : State) (f : Jtag → Jtag) : (updTap s f).sccEcc = s.sccEcc := rfl
@[simp] theorem updTap_wiping (s : State) (f : Jtag → Jtag) : (updTap s f).wiping = s.wiping := rfl
@[simp] theorem updTap_freeK (s : State) (f : Jtag → Jtag) : (updTap s f).freeK = s.freeK := rfl
@[simp] theorem updTap_pending (s : State) (f : Jtag → Jtag) : (updTap s f).pending = s.pending := rfl

/-! ### updEng -/

@[simp] theorem updEng_fuses (s : State) (e : Eng) (f : EngSt → EngSt) : (updEng s e f).fuses = s.fuses := rfl
@[simp] theorem updEng_boot (s : State) (e : Eng) (f : EngSt → EngSt) : (updEng s e f).boot = s.boot := rfl
@[simp] theorem updEng_sel (s : State) (e : Eng) (f : EngSt → EngSt) : (updEng s e f).sel = s.sel := rfl
@[simp] theorem updEng_pwr (s : State) (e : Eng) (f : EngSt → EngSt) : (updEng s e f).pwr = s.pwr := rfl
@[simp] theorem updEng_clk (s : State) (e : Eng) (f : EngSt → EngSt) : (updEng s e f).clk = s.clk := rfl
@[simp] theorem updEng_tim (s : State) (e : Eng) (f : EngSt → EngSt) : (updEng s e f).tim = s.tim := rfl
@[simp] theorem updEng_isl (s : State) (e : Eng) (f : EngSt → EngSt) : (updEng s e f).isl = s.isl := rfl
@[simp] theorem updEng_outstanding (s : State) (e : Eng) (f : EngSt → EngSt) : (updEng s e f).outstanding = s.outstanding := rfl
@[simp] theorem updEng_flt (s : State) (e : Eng) (f : EngSt → EngSt) : (updEng s e f).flt = s.flt := rfl
@[simp] theorem updEng_cp (s : State) (e : Eng) (f : EngSt → EngSt) : (updEng s e f).cp = s.cp := rfl
@[simp] theorem updEng_win (s : State) (e : Eng) (f : EngSt → EngSt) : (updEng s e f).win = s.win := rfl
@[simp] theorem updEng_db (s : State) (e : Eng) (f : EngSt → EngSt) : (updEng s e f).db = s.db := rfl
@[simp] theorem updEng_slip0 (s : State) (e : Eng) (f : EngSt → EngSt) : (updEng s e f).slip0 = s.slip0 := rfl
@[simp] theorem updEng_slip1 (s : State) (e : Eng) (f : EngSt → EngSt) : (updEng s e f).slip1 = s.slip1 := rfl
@[simp] theorem updEng_sns (s : State) (e : Eng) (f : EngSt → EngSt) : (updEng s e f).sns = s.sns := rfl
@[simp] theorem updEng_iotXfer (s : State) (e : Eng) (f : EngSt → EngSt) : (updEng s e f).iotXfer = s.iotXfer := rfl
@[simp] theorem updEng_iotCfg (s : State) (e : Eng) (f : EngSt → EngSt) : (updEng s e f).iotCfg = s.iotCfg := rfl
@[simp] theorem updEng_hp (s : State) (e : Eng) (f : EngSt → EngSt) : (updEng s e f).hp = s.hp := rfl
@[simp] theorem updEng_sce (s : State) (e : Eng) (f : EngSt → EngSt) : (updEng s e f).sce = s.sce := rfl
@[simp] theorem updEng_sed (s : State) (e : Eng) (f : EngSt → EngSt) : (updEng s e f).sed = s.sed := rfl
@[simp] theorem updEng_qm (s : State) (e : Eng) (f : EngSt → EngSt) : (updEng s e f).qm = s.qm := rfl
@[simp] theorem updEng_scs (s : State) (e : Eng) (f : EngSt → EngSt) : (updEng s e f).scs = s.scs := rfl
@[simp] theorem updEng_scTmo (s : State) (e : Eng) (f : EngSt → EngSt) : (updEng s e f).scTmo = s.scTmo := rfl
@[simp] theorem updEng_engs (s : State) (e : Eng) (f : EngSt → EngSt) : (updEng s e f).engs = upd s.engs (engIx e) f := rfl
@[simp] theorem updEng_sats (s : State) (e : Eng) (f : EngSt → EngSt) : (updEng s e f).sats = s.sats := rfl
@[simp] theorem updEng_satHit (s : State) (e : Eng) (f : EngSt → EngSt) : (updEng s e f).satHit = s.satHit := rfl
@[simp] theorem updEng_ldg (s : State) (e : Eng) (f : EngSt → EngSt) : (updEng s e f).ldg = s.ldg := rfl
@[simp] theorem updEng_cap (s : State) (e : Eng) (f : EngSt → EngSt) : (updEng s e f).cap = s.cap := rfl
@[simp] theorem updEng_lc (s : State) (e : Eng) (f : EngSt → EngSt) : (updEng s e f).lc = s.lc := rfl
@[simp] theorem updEng_jtag (s : State) (e : Eng) (f : EngSt → EngSt) : (updEng s e f).jtag = s.jtag := rfl
@[simp] theorem updEng_tiles (s : State) (e : Eng) (f : EngSt → EngSt) : (updEng s e f).tiles = s.tiles := rfl
@[simp] theorem updEng_csis (s : State) (e : Eng) (f : EngSt → EngSt) : (updEng s e f).csis = s.csis := rfl
@[simp] theorem updEng_mem (s : State) (e : Eng) (f : EngSt → EngSt) : (updEng s e f).mem = s.mem := rfl
@[simp] theorem updEng_clay (s : State) (e : Eng) (f : EngSt → EngSt) : (updEng s e f).clay = s.clay := rfl
@[simp] theorem updEng_clayK (s : State) (e : Eng) (f : EngSt → EngSt) : (updEng s e f).clayK = s.clayK := rfl
@[simp] theorem updEng_clayZ0 (s : State) (e : Eng) (f : EngSt → EngSt) : (updEng s e f).clayZ0 = s.clayZ0 := rfl
@[simp] theorem updEng_clayZ1 (s : State) (e : Eng) (f : EngSt → EngSt) : (updEng s e f).clayZ1 = s.clayZ1 := rfl
@[simp] theorem updEng_scc (s : State) (e : Eng) (f : EngSt → EngSt) : (updEng s e f).scc = s.scc := rfl
@[simp] theorem updEng_ecc (s : State) (e : Eng) (f : EngSt → EngSt) : (updEng s e f).ecc = s.ecc := rfl
@[simp] theorem updEng_sccEcc (s : State) (e : Eng) (f : EngSt → EngSt) : (updEng s e f).sccEcc = s.sccEcc := rfl
@[simp] theorem updEng_wiping (s : State) (e : Eng) (f : EngSt → EngSt) : (updEng s e f).wiping = s.wiping := rfl
@[simp] theorem updEng_freeK (s : State) (e : Eng) (f : EngSt → EngSt) : (updEng s e f).freeK = s.freeK := rfl
@[simp] theorem updEng_pending (s : State) (e : Eng) (f : EngSt → EngSt) : (updEng s e f).pending = s.pending := rfl

/-! ### updIsl -/

@[simp] theorem updIsl_fuses (s : State) (i : Nat) (f : Isl → Isl) : (updIsl s i f).fuses = s.fuses := rfl
@[simp] theorem updIsl_boot (s : State) (i : Nat) (f : Isl → Isl) : (updIsl s i f).boot = s.boot := rfl
@[simp] theorem updIsl_sel (s : State) (i : Nat) (f : Isl → Isl) : (updIsl s i f).sel = s.sel := rfl
@[simp] theorem updIsl_pwr (s : State) (i : Nat) (f : Isl → Isl) : (updIsl s i f).pwr = s.pwr := rfl
@[simp] theorem updIsl_clk (s : State) (i : Nat) (f : Isl → Isl) : (updIsl s i f).clk = s.clk := rfl
@[simp] theorem updIsl_tim (s : State) (i : Nat) (f : Isl → Isl) : (updIsl s i f).tim = s.tim := rfl
@[simp] theorem updIsl_isl (s : State) (i : Nat) (f : Isl → Isl) : (updIsl s i f).isl = upd s.isl i f := rfl
@[simp] theorem updIsl_outstanding (s : State) (i : Nat) (f : Isl → Isl) : (updIsl s i f).outstanding = s.outstanding := rfl
@[simp] theorem updIsl_flt (s : State) (i : Nat) (f : Isl → Isl) : (updIsl s i f).flt = s.flt := rfl
@[simp] theorem updIsl_cp (s : State) (i : Nat) (f : Isl → Isl) : (updIsl s i f).cp = s.cp := rfl
@[simp] theorem updIsl_win (s : State) (i : Nat) (f : Isl → Isl) : (updIsl s i f).win = s.win := rfl
@[simp] theorem updIsl_db (s : State) (i : Nat) (f : Isl → Isl) : (updIsl s i f).db = s.db := rfl
@[simp] theorem updIsl_slip0 (s : State) (i : Nat) (f : Isl → Isl) : (updIsl s i f).slip0 = s.slip0 := rfl
@[simp] theorem updIsl_slip1 (s : State) (i : Nat) (f : Isl → Isl) : (updIsl s i f).slip1 = s.slip1 := rfl
@[simp] theorem updIsl_sns (s : State) (i : Nat) (f : Isl → Isl) : (updIsl s i f).sns = s.sns := rfl
@[simp] theorem updIsl_iotXfer (s : State) (i : Nat) (f : Isl → Isl) : (updIsl s i f).iotXfer = s.iotXfer := rfl
@[simp] theorem updIsl_iotCfg (s : State) (i : Nat) (f : Isl → Isl) : (updIsl s i f).iotCfg = s.iotCfg := rfl
@[simp] theorem updIsl_hp (s : State) (i : Nat) (f : Isl → Isl) : (updIsl s i f).hp = s.hp := rfl
@[simp] theorem updIsl_sce (s : State) (i : Nat) (f : Isl → Isl) : (updIsl s i f).sce = s.sce := rfl
@[simp] theorem updIsl_sed (s : State) (i : Nat) (f : Isl → Isl) : (updIsl s i f).sed = s.sed := rfl
@[simp] theorem updIsl_qm (s : State) (i : Nat) (f : Isl → Isl) : (updIsl s i f).qm = s.qm := rfl
@[simp] theorem updIsl_scs (s : State) (i : Nat) (f : Isl → Isl) : (updIsl s i f).scs = s.scs := rfl
@[simp] theorem updIsl_scTmo (s : State) (i : Nat) (f : Isl → Isl) : (updIsl s i f).scTmo = s.scTmo := rfl
@[simp] theorem updIsl_engs (s : State) (i : Nat) (f : Isl → Isl) : (updIsl s i f).engs = s.engs := rfl
@[simp] theorem updIsl_sats (s : State) (i : Nat) (f : Isl → Isl) : (updIsl s i f).sats = s.sats := rfl
@[simp] theorem updIsl_satHit (s : State) (i : Nat) (f : Isl → Isl) : (updIsl s i f).satHit = s.satHit := rfl
@[simp] theorem updIsl_ldg (s : State) (i : Nat) (f : Isl → Isl) : (updIsl s i f).ldg = s.ldg := rfl
@[simp] theorem updIsl_cap (s : State) (i : Nat) (f : Isl → Isl) : (updIsl s i f).cap = s.cap := rfl
@[simp] theorem updIsl_lc (s : State) (i : Nat) (f : Isl → Isl) : (updIsl s i f).lc = s.lc := rfl
@[simp] theorem updIsl_jtag (s : State) (i : Nat) (f : Isl → Isl) : (updIsl s i f).jtag = s.jtag := rfl
@[simp] theorem updIsl_tiles (s : State) (i : Nat) (f : Isl → Isl) : (updIsl s i f).tiles = s.tiles := rfl
@[simp] theorem updIsl_csis (s : State) (i : Nat) (f : Isl → Isl) : (updIsl s i f).csis = s.csis := rfl
@[simp] theorem updIsl_mem (s : State) (i : Nat) (f : Isl → Isl) : (updIsl s i f).mem = s.mem := rfl
@[simp] theorem updIsl_clay (s : State) (i : Nat) (f : Isl → Isl) : (updIsl s i f).clay = s.clay := rfl
@[simp] theorem updIsl_clayK (s : State) (i : Nat) (f : Isl → Isl) : (updIsl s i f).clayK = s.clayK := rfl
@[simp] theorem updIsl_clayZ0 (s : State) (i : Nat) (f : Isl → Isl) : (updIsl s i f).clayZ0 = s.clayZ0 := rfl
@[simp] theorem updIsl_clayZ1 (s : State) (i : Nat) (f : Isl → Isl) : (updIsl s i f).clayZ1 = s.clayZ1 := rfl
@[simp] theorem updIsl_scc (s : State) (i : Nat) (f : Isl → Isl) : (updIsl s i f).scc = s.scc := rfl
@[simp] theorem updIsl_ecc (s : State) (i : Nat) (f : Isl → Isl) : (updIsl s i f).ecc = s.ecc := rfl
@[simp] theorem updIsl_sccEcc (s : State) (i : Nat) (f : Isl → Isl) : (updIsl s i f).sccEcc = s.sccEcc := rfl
@[simp] theorem updIsl_wiping (s : State) (i : Nat) (f : Isl → Isl) : (updIsl s i f).wiping = s.wiping := rfl
@[simp] theorem updIsl_freeK (s : State) (i : Nat) (f : Isl → Isl) : (updIsl s i f).freeK = s.freeK := rfl
@[simp] theorem updIsl_pending (s : State) (i : Nat) (f : Isl → Isl) : (updIsl s i f).pending = s.pending := rfl

/-! ### updTile -/

@[simp] theorem updTile_fuses (s : State) (t : Tile) (f : TileSt → TileSt) : (updTile s t f).fuses = s.fuses := rfl
@[simp] theorem updTile_boot (s : State) (t : Tile) (f : TileSt → TileSt) : (updTile s t f).boot = s.boot := rfl
@[simp] theorem updTile_sel (s : State) (t : Tile) (f : TileSt → TileSt) : (updTile s t f).sel = s.sel := rfl
@[simp] theorem updTile_pwr (s : State) (t : Tile) (f : TileSt → TileSt) : (updTile s t f).pwr = s.pwr := rfl
@[simp] theorem updTile_clk (s : State) (t : Tile) (f : TileSt → TileSt) : (updTile s t f).clk = s.clk := rfl
@[simp] theorem updTile_tim (s : State) (t : Tile) (f : TileSt → TileSt) : (updTile s t f).tim = s.tim := rfl
@[simp] theorem updTile_isl (s : State) (t : Tile) (f : TileSt → TileSt) : (updTile s t f).isl = s.isl := rfl
@[simp] theorem updTile_outstanding (s : State) (t : Tile) (f : TileSt → TileSt) : (updTile s t f).outstanding = s.outstanding := rfl
@[simp] theorem updTile_flt (s : State) (t : Tile) (f : TileSt → TileSt) : (updTile s t f).flt = s.flt := rfl
@[simp] theorem updTile_cp (s : State) (t : Tile) (f : TileSt → TileSt) : (updTile s t f).cp = s.cp := rfl
@[simp] theorem updTile_win (s : State) (t : Tile) (f : TileSt → TileSt) : (updTile s t f).win = s.win := rfl
@[simp] theorem updTile_db (s : State) (t : Tile) (f : TileSt → TileSt) : (updTile s t f).db = s.db := rfl
@[simp] theorem updTile_slip0 (s : State) (t : Tile) (f : TileSt → TileSt) : (updTile s t f).slip0 = s.slip0 := rfl
@[simp] theorem updTile_slip1 (s : State) (t : Tile) (f : TileSt → TileSt) : (updTile s t f).slip1 = s.slip1 := rfl
@[simp] theorem updTile_sns (s : State) (t : Tile) (f : TileSt → TileSt) : (updTile s t f).sns = s.sns := rfl
@[simp] theorem updTile_iotXfer (s : State) (t : Tile) (f : TileSt → TileSt) : (updTile s t f).iotXfer = s.iotXfer := rfl
@[simp] theorem updTile_iotCfg (s : State) (t : Tile) (f : TileSt → TileSt) : (updTile s t f).iotCfg = s.iotCfg := rfl
@[simp] theorem updTile_hp (s : State) (t : Tile) (f : TileSt → TileSt) : (updTile s t f).hp = s.hp := rfl
@[simp] theorem updTile_sce (s : State) (t : Tile) (f : TileSt → TileSt) : (updTile s t f).sce = s.sce := rfl
@[simp] theorem updTile_sed (s : State) (t : Tile) (f : TileSt → TileSt) : (updTile s t f).sed = s.sed := rfl
@[simp] theorem updTile_qm (s : State) (t : Tile) (f : TileSt → TileSt) : (updTile s t f).qm = s.qm := rfl
@[simp] theorem updTile_scs (s : State) (t : Tile) (f : TileSt → TileSt) : (updTile s t f).scs = s.scs := rfl
@[simp] theorem updTile_scTmo (s : State) (t : Tile) (f : TileSt → TileSt) : (updTile s t f).scTmo = s.scTmo := rfl
@[simp] theorem updTile_engs (s : State) (t : Tile) (f : TileSt → TileSt) : (updTile s t f).engs = s.engs := rfl
@[simp] theorem updTile_sats (s : State) (t : Tile) (f : TileSt → TileSt) : (updTile s t f).sats = s.sats := rfl
@[simp] theorem updTile_satHit (s : State) (t : Tile) (f : TileSt → TileSt) : (updTile s t f).satHit = s.satHit := rfl
@[simp] theorem updTile_ldg (s : State) (t : Tile) (f : TileSt → TileSt) : (updTile s t f).ldg = s.ldg := rfl
@[simp] theorem updTile_cap (s : State) (t : Tile) (f : TileSt → TileSt) : (updTile s t f).cap = s.cap := rfl
@[simp] theorem updTile_lc (s : State) (t : Tile) (f : TileSt → TileSt) : (updTile s t f).lc = s.lc := rfl
@[simp] theorem updTile_jtag (s : State) (t : Tile) (f : TileSt → TileSt) : (updTile s t f).jtag = s.jtag := rfl
@[simp] theorem updTile_tiles (s : State) (t : Tile) (f : TileSt → TileSt) : (updTile s t f).tiles = upd s.tiles (tileIx t) f := rfl
@[simp] theorem updTile_csis (s : State) (t : Tile) (f : TileSt → TileSt) : (updTile s t f).csis = s.csis := rfl
@[simp] theorem updTile_mem (s : State) (t : Tile) (f : TileSt → TileSt) : (updTile s t f).mem = s.mem := rfl
@[simp] theorem updTile_clay (s : State) (t : Tile) (f : TileSt → TileSt) : (updTile s t f).clay = s.clay := rfl
@[simp] theorem updTile_clayK (s : State) (t : Tile) (f : TileSt → TileSt) : (updTile s t f).clayK = s.clayK := rfl
@[simp] theorem updTile_clayZ0 (s : State) (t : Tile) (f : TileSt → TileSt) : (updTile s t f).clayZ0 = s.clayZ0 := rfl
@[simp] theorem updTile_clayZ1 (s : State) (t : Tile) (f : TileSt → TileSt) : (updTile s t f).clayZ1 = s.clayZ1 := rfl
@[simp] theorem updTile_scc (s : State) (t : Tile) (f : TileSt → TileSt) : (updTile s t f).scc = s.scc := rfl
@[simp] theorem updTile_ecc (s : State) (t : Tile) (f : TileSt → TileSt) : (updTile s t f).ecc = s.ecc := rfl
@[simp] theorem updTile_sccEcc (s : State) (t : Tile) (f : TileSt → TileSt) : (updTile s t f).sccEcc = s.sccEcc := rfl
@[simp] theorem updTile_wiping (s : State) (t : Tile) (f : TileSt → TileSt) : (updTile s t f).wiping = s.wiping := rfl
@[simp] theorem updTile_freeK (s : State) (t : Tile) (f : TileSt → TileSt) : (updTile s t f).freeK = s.freeK := rfl
@[simp] theorem updTile_pending (s : State) (t : Tile) (f : TileSt → TileSt) : (updTile s t f).pending = s.pending := rfl

/-! ### updChan -/

@[simp] theorem updChan_fuses (s : State) (n : Nat) (f : Chan → Chan) : (updChan s n f).fuses = s.fuses := rfl
@[simp] theorem updChan_boot (s : State) (n : Nat) (f : Chan → Chan) : (updChan s n f).boot = s.boot := rfl
@[simp] theorem updChan_sel (s : State) (n : Nat) (f : Chan → Chan) : (updChan s n f).sel = s.sel := rfl
@[simp] theorem updChan_pwr (s : State) (n : Nat) (f : Chan → Chan) : (updChan s n f).pwr = s.pwr := rfl
@[simp] theorem updChan_clk (s : State) (n : Nat) (f : Chan → Chan) : (updChan s n f).clk = s.clk := rfl
@[simp] theorem updChan_tim (s : State) (n : Nat) (f : Chan → Chan) : (updChan s n f).tim = s.tim := rfl
@[simp] theorem updChan_isl (s : State) (n : Nat) (f : Chan → Chan) : (updChan s n f).isl = s.isl := rfl
@[simp] theorem updChan_outstanding (s : State) (n : Nat) (f : Chan → Chan) : (updChan s n f).outstanding = s.outstanding := rfl
@[simp] theorem updChan_flt (s : State) (n : Nat) (f : Chan → Chan) : (updChan s n f).flt = s.flt := rfl
@[simp] theorem updChan_cp (s : State) (n : Nat) (f : Chan → Chan) : (updChan s n f).cp = s.cp := rfl
@[simp] theorem updChan_win (s : State) (n : Nat) (f : Chan → Chan) : (updChan s n f).win = s.win := rfl
@[simp] theorem updChan_db (s : State) (n : Nat) (f : Chan → Chan) : (updChan s n f).db = s.db := rfl
@[simp] theorem updChan_slip0 (s : State) (n : Nat) (f : Chan → Chan) : (updChan s n f).slip0 = s.slip0 := rfl
@[simp] theorem updChan_slip1 (s : State) (n : Nat) (f : Chan → Chan) : (updChan s n f).slip1 = s.slip1 := rfl
@[simp] theorem updChan_sns (s : State) (n : Nat) (f : Chan → Chan) : (updChan s n f).sns = { s.sns with chans := upd s.sns.chans n f } := rfl
@[simp] theorem updChan_iotXfer (s : State) (n : Nat) (f : Chan → Chan) : (updChan s n f).iotXfer = s.iotXfer := rfl
@[simp] theorem updChan_iotCfg (s : State) (n : Nat) (f : Chan → Chan) : (updChan s n f).iotCfg = s.iotCfg := rfl
@[simp] theorem updChan_hp (s : State) (n : Nat) (f : Chan → Chan) : (updChan s n f).hp = s.hp := rfl
@[simp] theorem updChan_sce (s : State) (n : Nat) (f : Chan → Chan) : (updChan s n f).sce = s.sce := rfl
@[simp] theorem updChan_sed (s : State) (n : Nat) (f : Chan → Chan) : (updChan s n f).sed = s.sed := rfl
@[simp] theorem updChan_qm (s : State) (n : Nat) (f : Chan → Chan) : (updChan s n f).qm = s.qm := rfl
@[simp] theorem updChan_scs (s : State) (n : Nat) (f : Chan → Chan) : (updChan s n f).scs = s.scs := rfl
@[simp] theorem updChan_scTmo (s : State) (n : Nat) (f : Chan → Chan) : (updChan s n f).scTmo = s.scTmo := rfl
@[simp] theorem updChan_engs (s : State) (n : Nat) (f : Chan → Chan) : (updChan s n f).engs = s.engs := rfl
@[simp] theorem updChan_sats (s : State) (n : Nat) (f : Chan → Chan) : (updChan s n f).sats = s.sats := rfl
@[simp] theorem updChan_satHit (s : State) (n : Nat) (f : Chan → Chan) : (updChan s n f).satHit = s.satHit := rfl
@[simp] theorem updChan_ldg (s : State) (n : Nat) (f : Chan → Chan) : (updChan s n f).ldg = s.ldg := rfl
@[simp] theorem updChan_cap (s : State) (n : Nat) (f : Chan → Chan) : (updChan s n f).cap = s.cap := rfl
@[simp] theorem updChan_lc (s : State) (n : Nat) (f : Chan → Chan) : (updChan s n f).lc = s.lc := rfl
@[simp] theorem updChan_jtag (s : State) (n : Nat) (f : Chan → Chan) : (updChan s n f).jtag = s.jtag := rfl
@[simp] theorem updChan_tiles (s : State) (n : Nat) (f : Chan → Chan) : (updChan s n f).tiles = s.tiles := rfl
@[simp] theorem updChan_csis (s : State) (n : Nat) (f : Chan → Chan) : (updChan s n f).csis = s.csis := rfl
@[simp] theorem updChan_mem (s : State) (n : Nat) (f : Chan → Chan) : (updChan s n f).mem = s.mem := rfl
@[simp] theorem updChan_clay (s : State) (n : Nat) (f : Chan → Chan) : (updChan s n f).clay = s.clay := rfl
@[simp] theorem updChan_clayK (s : State) (n : Nat) (f : Chan → Chan) : (updChan s n f).clayK = s.clayK := rfl
@[simp] theorem updChan_clayZ0 (s : State) (n : Nat) (f : Chan → Chan) : (updChan s n f).clayZ0 = s.clayZ0 := rfl
@[simp] theorem updChan_clayZ1 (s : State) (n : Nat) (f : Chan → Chan) : (updChan s n f).clayZ1 = s.clayZ1 := rfl
@[simp] theorem updChan_scc (s : State) (n : Nat) (f : Chan → Chan) : (updChan s n f).scc = s.scc := rfl
@[simp] theorem updChan_ecc (s : State) (n : Nat) (f : Chan → Chan) : (updChan s n f).ecc = s.ecc := rfl
@[simp] theorem updChan_sccEcc (s : State) (n : Nat) (f : Chan → Chan) : (updChan s n f).sccEcc = s.sccEcc := rfl
@[simp] theorem updChan_wiping (s : State) (n : Nat) (f : Chan → Chan) : (updChan s n f).wiping = s.wiping := rfl
@[simp] theorem updChan_freeK (s : State) (n : Nat) (f : Chan → Chan) : (updChan s n f).freeK = s.freeK := rfl
@[simp] theorem updChan_pending (s : State) (n : Nat) (f : Chan → Chan) : (updChan s n f).pending = s.pending := rfl

/-! ### updEntry -/

@[simp] theorem updEntry_fuses (s : State) (i : Nat) (f : Entry → Entry) : (updEntry s i f).fuses = s.fuses := rfl
@[simp] theorem updEntry_boot (s : State) (i : Nat) (f : Entry → Entry) : (updEntry s i f).boot = s.boot := rfl
@[simp] theorem updEntry_sel (s : State) (i : Nat) (f : Entry → Entry) : (updEntry s i f).sel = s.sel := rfl
@[simp] theorem updEntry_pwr (s : State) (i : Nat) (f : Entry → Entry) : (updEntry s i f).pwr = s.pwr := rfl
@[simp] theorem updEntry_clk (s : State) (i : Nat) (f : Entry → Entry) : (updEntry s i f).clk = s.clk := rfl
@[simp] theorem updEntry_tim (s : State) (i : Nat) (f : Entry → Entry) : (updEntry s i f).tim = s.tim := rfl
@[simp] theorem updEntry_isl (s : State) (i : Nat) (f : Entry → Entry) : (updEntry s i f).isl = s.isl := rfl
@[simp] theorem updEntry_outstanding (s : State) (i : Nat) (f : Entry → Entry) : (updEntry s i f).outstanding = s.outstanding := rfl
@[simp] theorem updEntry_flt (s : State) (i : Nat) (f : Entry → Entry) : (updEntry s i f).flt = s.flt := rfl
@[simp] theorem updEntry_cp (s : State) (i : Nat) (f : Entry → Entry) : (updEntry s i f).cp = s.cp := rfl
@[simp] theorem updEntry_win (s : State) (i : Nat) (f : Entry → Entry) : (updEntry s i f).win = s.win := rfl
@[simp] theorem updEntry_db (s : State) (i : Nat) (f : Entry → Entry) : (updEntry s i f).db = s.db := rfl
@[simp] theorem updEntry_slip0 (s : State) (i : Nat) (f : Entry → Entry) : (updEntry s i f).slip0 = s.slip0 := rfl
@[simp] theorem updEntry_slip1 (s : State) (i : Nat) (f : Entry → Entry) : (updEntry s i f).slip1 = s.slip1 := rfl
@[simp] theorem updEntry_sns (s : State) (i : Nat) (f : Entry → Entry) : (updEntry s i f).sns = s.sns := rfl
@[simp] theorem updEntry_iotXfer (s : State) (i : Nat) (f : Entry → Entry) : (updEntry s i f).iotXfer = s.iotXfer := rfl
@[simp] theorem updEntry_iotCfg (s : State) (i : Nat) (f : Entry → Entry) : (updEntry s i f).iotCfg = s.iotCfg := rfl
@[simp] theorem updEntry_hp (s : State) (i : Nat) (f : Entry → Entry) : (updEntry s i f).hp = s.hp := rfl
@[simp] theorem updEntry_sce (s : State) (i : Nat) (f : Entry → Entry) : (updEntry s i f).sce = s.sce := rfl
@[simp] theorem updEntry_sed (s : State) (i : Nat) (f : Entry → Entry) : (updEntry s i f).sed = s.sed := rfl
@[simp] theorem updEntry_qm (s : State) (i : Nat) (f : Entry → Entry) : (updEntry s i f).qm = s.qm := rfl
@[simp] theorem updEntry_scs (s : State) (i : Nat) (f : Entry → Entry) : (updEntry s i f).scs = s.scs := rfl
@[simp] theorem updEntry_scTmo (s : State) (i : Nat) (f : Entry → Entry) : (updEntry s i f).scTmo = s.scTmo := rfl
@[simp] theorem updEntry_engs (s : State) (i : Nat) (f : Entry → Entry) : (updEntry s i f).engs = s.engs := rfl
@[simp] theorem updEntry_sats (s : State) (i : Nat) (f : Entry → Entry) : (updEntry s i f).sats = s.sats := rfl
@[simp] theorem updEntry_satHit (s : State) (i : Nat) (f : Entry → Entry) : (updEntry s i f).satHit = s.satHit := rfl
@[simp] theorem updEntry_ldg (s : State) (i : Nat) (f : Entry → Entry) : (updEntry s i f).ldg = { s.ldg with entries := upd s.ldg.entries i f } := rfl
@[simp] theorem updEntry_cap (s : State) (i : Nat) (f : Entry → Entry) : (updEntry s i f).cap = s.cap := rfl
@[simp] theorem updEntry_lc (s : State) (i : Nat) (f : Entry → Entry) : (updEntry s i f).lc = s.lc := rfl
@[simp] theorem updEntry_jtag (s : State) (i : Nat) (f : Entry → Entry) : (updEntry s i f).jtag = s.jtag := rfl
@[simp] theorem updEntry_tiles (s : State) (i : Nat) (f : Entry → Entry) : (updEntry s i f).tiles = s.tiles := rfl
@[simp] theorem updEntry_csis (s : State) (i : Nat) (f : Entry → Entry) : (updEntry s i f).csis = s.csis := rfl
@[simp] theorem updEntry_mem (s : State) (i : Nat) (f : Entry → Entry) : (updEntry s i f).mem = s.mem := rfl
@[simp] theorem updEntry_clay (s : State) (i : Nat) (f : Entry → Entry) : (updEntry s i f).clay = s.clay := rfl
@[simp] theorem updEntry_clayK (s : State) (i : Nat) (f : Entry → Entry) : (updEntry s i f).clayK = s.clayK := rfl
@[simp] theorem updEntry_clayZ0 (s : State) (i : Nat) (f : Entry → Entry) : (updEntry s i f).clayZ0 = s.clayZ0 := rfl
@[simp] theorem updEntry_clayZ1 (s : State) (i : Nat) (f : Entry → Entry) : (updEntry s i f).clayZ1 = s.clayZ1 := rfl
@[simp] theorem updEntry_scc (s : State) (i : Nat) (f : Entry → Entry) : (updEntry s i f).scc = s.scc := rfl
@[simp] theorem updEntry_ecc (s : State) (i : Nat) (f : Entry → Entry) : (updEntry s i f).ecc = s.ecc := rfl
@[simp] theorem updEntry_sccEcc (s : State) (i : Nat) (f : Entry → Entry) : (updEntry s i f).sccEcc = s.sccEcc := rfl
@[simp] theorem updEntry_wiping (s : State) (i : Nat) (f : Entry → Entry) : (updEntry s i f).wiping = s.wiping := rfl
@[simp] theorem updEntry_freeK (s : State) (i : Nat) (f : Entry → Entry) : (updEntry s i f).freeK = s.freeK := rfl
@[simp] theorem updEntry_pending (s : State) (i : Nat) (f : Entry → Entry) : (updEntry s i f).pending = s.pending := rfl

/-! ### setQd -/

@[simp] theorem setQd_fuses (s : State) (q : Nat) (d : QDesc) : (setQd s q d).fuses = s.fuses := rfl
@[simp] theorem setQd_boot (s : State) (q : Nat) (d : QDesc) : (setQd s q d).boot = s.boot := rfl
@[simp] theorem setQd_sel (s : State) (q : Nat) (d : QDesc) : (setQd s q d).sel = s.sel := rfl
@[simp] theorem setQd_pwr (s : State) (q : Nat) (d : QDesc) : (setQd s q d).pwr = s.pwr := rfl
@[simp] theorem setQd_clk (s : State) (q : Nat) (d : QDesc) : (setQd s q d).clk = s.clk := rfl
@[simp] theorem setQd_tim (s : State) (q : Nat) (d : QDesc) : (setQd s q d).tim = s.tim := rfl
@[simp] theorem setQd_isl (s : State) (q : Nat) (d : QDesc) : (setQd s q d).isl = s.isl := rfl
@[simp] theorem setQd_outstanding (s : State) (q : Nat) (d : QDesc) : (setQd s q d).outstanding = s.outstanding := rfl
@[simp] theorem setQd_flt (s : State) (q : Nat) (d : QDesc) : (setQd s q d).flt = s.flt := rfl
@[simp] theorem setQd_cp (s : State) (q : Nat) (d : QDesc) : (setQd s q d).cp = s.cp := rfl
@[simp] theorem setQd_win (s : State) (q : Nat) (d : QDesc) : (setQd s q d).win = s.win := rfl
@[simp] theorem setQd_db (s : State) (q : Nat) (d : QDesc) : (setQd s q d).db = s.db := rfl
@[simp] theorem setQd_slip0 (s : State) (q : Nat) (d : QDesc) : (setQd s q d).slip0 = s.slip0 := rfl
@[simp] theorem setQd_slip1 (s : State) (q : Nat) (d : QDesc) : (setQd s q d).slip1 = s.slip1 := rfl
@[simp] theorem setQd_sns (s : State) (q : Nat) (d : QDesc) : (setQd s q d).sns = s.sns := rfl
@[simp] theorem setQd_iotXfer (s : State) (q : Nat) (d : QDesc) : (setQd s q d).iotXfer = s.iotXfer := rfl
@[simp] theorem setQd_iotCfg (s : State) (q : Nat) (d : QDesc) : (setQd s q d).iotCfg = s.iotCfg := rfl
@[simp] theorem setQd_hp (s : State) (q : Nat) (d : QDesc) : (setQd s q d).hp = s.hp := rfl
@[simp] theorem setQd_sce (s : State) (q : Nat) (d : QDesc) : (setQd s q d).sce = s.sce := rfl
@[simp] theorem setQd_sed (s : State) (q : Nat) (d : QDesc) : (setQd s q d).sed = s.sed := rfl
@[simp] theorem setQd_qm (s : State) (q : Nat) (d : QDesc) : (setQd s q d).qm = { s.qm with qdt := put .unused s.qm.qdt q d } := rfl
@[simp] theorem setQd_scs (s : State) (q : Nat) (d : QDesc) : (setQd s q d).scs = s.scs := rfl
@[simp] theorem setQd_scTmo (s : State) (q : Nat) (d : QDesc) : (setQd s q d).scTmo = s.scTmo := rfl
@[simp] theorem setQd_engs (s : State) (q : Nat) (d : QDesc) : (setQd s q d).engs = s.engs := rfl
@[simp] theorem setQd_sats (s : State) (q : Nat) (d : QDesc) : (setQd s q d).sats = s.sats := rfl
@[simp] theorem setQd_satHit (s : State) (q : Nat) (d : QDesc) : (setQd s q d).satHit = s.satHit := rfl
@[simp] theorem setQd_ldg (s : State) (q : Nat) (d : QDesc) : (setQd s q d).ldg = s.ldg := rfl
@[simp] theorem setQd_cap (s : State) (q : Nat) (d : QDesc) : (setQd s q d).cap = s.cap := rfl
@[simp] theorem setQd_lc (s : State) (q : Nat) (d : QDesc) : (setQd s q d).lc = s.lc := rfl
@[simp] theorem setQd_jtag (s : State) (q : Nat) (d : QDesc) : (setQd s q d).jtag = s.jtag := rfl
@[simp] theorem setQd_tiles (s : State) (q : Nat) (d : QDesc) : (setQd s q d).tiles = s.tiles := rfl
@[simp] theorem setQd_csis (s : State) (q : Nat) (d : QDesc) : (setQd s q d).csis = s.csis := rfl
@[simp] theorem setQd_mem (s : State) (q : Nat) (d : QDesc) : (setQd s q d).mem = s.mem := rfl
@[simp] theorem setQd_clay (s : State) (q : Nat) (d : QDesc) : (setQd s q d).clay = s.clay := rfl
@[simp] theorem setQd_clayK (s : State) (q : Nat) (d : QDesc) : (setQd s q d).clayK = s.clayK := rfl
@[simp] theorem setQd_clayZ0 (s : State) (q : Nat) (d : QDesc) : (setQd s q d).clayZ0 = s.clayZ0 := rfl
@[simp] theorem setQd_clayZ1 (s : State) (q : Nat) (d : QDesc) : (setQd s q d).clayZ1 = s.clayZ1 := rfl
@[simp] theorem setQd_scc (s : State) (q : Nat) (d : QDesc) : (setQd s q d).scc = s.scc := rfl
@[simp] theorem setQd_sccEcc (s : State) (q : Nat) (d : QDesc) : (setQd s q d).sccEcc = s.sccEcc := rfl
@[simp] theorem setQd_wiping (s : State) (q : Nat) (d : QDesc) : (setQd s q d).wiping = s.wiping := rfl
@[simp] theorem setQd_freeK (s : State) (q : Nat) (d : QDesc) : (setQd s q d).freeK = s.freeK := rfl
@[simp] theorem setQd_pending (s : State) (q : Nat) (d : QDesc) : (setQd s q d).pending = s.pending := rfl

/-! ### setSc -/

@[simp] theorem setSc_fuses (s : State) (n : Nat) (c : Sc) : (setSc s n c).fuses = s.fuses := rfl
@[simp] theorem setSc_boot (s : State) (n : Nat) (c : Sc) : (setSc s n c).boot = s.boot := rfl
@[simp] theorem setSc_sel (s : State) (n : Nat) (c : Sc) : (setSc s n c).sel = s.sel := rfl
@[simp] theorem setSc_pwr (s : State) (n : Nat) (c : Sc) : (setSc s n c).pwr = s.pwr := rfl
@[simp] theorem setSc_clk (s : State) (n : Nat) (c : Sc) : (setSc s n c).clk = s.clk := rfl
@[simp] theorem setSc_tim (s : State) (n : Nat) (c : Sc) : (setSc s n c).tim = s.tim := rfl
@[simp] theorem setSc_isl (s : State) (n : Nat) (c : Sc) : (setSc s n c).isl = s.isl := rfl
@[simp] theorem setSc_outstanding (s : State) (n : Nat) (c : Sc) : (setSc s n c).outstanding = s.outstanding := rfl
@[simp] theorem setSc_flt (s : State) (n : Nat) (c : Sc) : (setSc s n c).flt = s.flt := rfl
@[simp] theorem setSc_cp (s : State) (n : Nat) (c : Sc) : (setSc s n c).cp = s.cp := rfl
@[simp] theorem setSc_win (s : State) (n : Nat) (c : Sc) : (setSc s n c).win = s.win := rfl
@[simp] theorem setSc_db (s : State) (n : Nat) (c : Sc) : (setSc s n c).db = s.db := rfl
@[simp] theorem setSc_slip0 (s : State) (n : Nat) (c : Sc) : (setSc s n c).slip0 = s.slip0 := rfl
@[simp] theorem setSc_slip1 (s : State) (n : Nat) (c : Sc) : (setSc s n c).slip1 = s.slip1 := rfl
@[simp] theorem setSc_sns (s : State) (n : Nat) (c : Sc) : (setSc s n c).sns = s.sns := rfl
@[simp] theorem setSc_iotXfer (s : State) (n : Nat) (c : Sc) : (setSc s n c).iotXfer = s.iotXfer := rfl
@[simp] theorem setSc_iotCfg (s : State) (n : Nat) (c : Sc) : (setSc s n c).iotCfg = s.iotCfg := rfl
@[simp] theorem setSc_hp (s : State) (n : Nat) (c : Sc) : (setSc s n c).hp = s.hp := rfl
@[simp] theorem setSc_sce (s : State) (n : Nat) (c : Sc) : (setSc s n c).sce = s.sce := rfl
@[simp] theorem setSc_sed (s : State) (n : Nat) (c : Sc) : (setSc s n c).sed = s.sed := rfl
@[simp] theorem setSc_qm (s : State) (n : Nat) (c : Sc) : (setSc s n c).qm = s.qm := rfl
@[simp] theorem setSc_scs (s : State) (n : Nat) (c : Sc) : (setSc s n c).scs = put .unused s.scs n c := rfl
@[simp] theorem setSc_scTmo (s : State) (n : Nat) (c : Sc) : (setSc s n c).scTmo = s.scTmo := rfl
@[simp] theorem setSc_engs (s : State) (n : Nat) (c : Sc) : (setSc s n c).engs = s.engs := rfl
@[simp] theorem setSc_sats (s : State) (n : Nat) (c : Sc) : (setSc s n c).sats = s.sats := rfl
@[simp] theorem setSc_satHit (s : State) (n : Nat) (c : Sc) : (setSc s n c).satHit = s.satHit := rfl
@[simp] theorem setSc_ldg (s : State) (n : Nat) (c : Sc) : (setSc s n c).ldg = s.ldg := rfl
@[simp] theorem setSc_cap (s : State) (n : Nat) (c : Sc) : (setSc s n c).cap = s.cap := rfl
@[simp] theorem setSc_lc (s : State) (n : Nat) (c : Sc) : (setSc s n c).lc = s.lc := rfl
@[simp] theorem setSc_jtag (s : State) (n : Nat) (c : Sc) : (setSc s n c).jtag = s.jtag := rfl
@[simp] theorem setSc_tiles (s : State) (n : Nat) (c : Sc) : (setSc s n c).tiles = s.tiles := rfl
@[simp] theorem setSc_csis (s : State) (n : Nat) (c : Sc) : (setSc s n c).csis = s.csis := rfl
@[simp] theorem setSc_mem (s : State) (n : Nat) (c : Sc) : (setSc s n c).mem = s.mem := rfl
@[simp] theorem setSc_clay (s : State) (n : Nat) (c : Sc) : (setSc s n c).clay = s.clay := rfl
@[simp] theorem setSc_clayK (s : State) (n : Nat) (c : Sc) : (setSc s n c).clayK = s.clayK := rfl
@[simp] theorem setSc_clayZ0 (s : State) (n : Nat) (c : Sc) : (setSc s n c).clayZ0 = s.clayZ0 := rfl
@[simp] theorem setSc_clayZ1 (s : State) (n : Nat) (c : Sc) : (setSc s n c).clayZ1 = s.clayZ1 := rfl
@[simp] theorem setSc_scc (s : State) (n : Nat) (c : Sc) : (setSc s n c).scc = s.scc := rfl
@[simp] theorem setSc_ecc (s : State) (n : Nat) (c : Sc) : (setSc s n c).ecc = s.ecc := rfl
@[simp] theorem setSc_sccEcc (s : State) (n : Nat) (c : Sc) : (setSc s n c).sccEcc = s.sccEcc := rfl
@[simp] theorem setSc_wiping (s : State) (n : Nat) (c : Sc) : (setSc s n c).wiping = s.wiping := rfl
@[simp] theorem setSc_freeK (s : State) (n : Nat) (c : Sc) : (setSc s n c).freeK = s.freeK := rfl
@[simp] theorem setSc_pending (s : State) (n : Nat) (c : Sc) : (setSc s n c).pending = s.pending := rfl

/-! ### updSlot -/

@[simp] theorem updSlot_fuses (s : State) (m : Nat) (b : Bool) (f : Slot → Slot) : (updSlot s m b f).fuses = s.fuses := rfl
@[simp] theorem updSlot_boot (s : State) (m : Nat) (b : Bool) (f : Slot → Slot) : (updSlot s m b f).boot = s.boot := rfl
@[simp] theorem updSlot_sel (s : State) (m : Nat) (b : Bool) (f : Slot → Slot) : (updSlot s m b f).sel = s.sel := rfl
@[simp] theorem updSlot_pwr (s : State) (m : Nat) (b : Bool) (f : Slot → Slot) : (updSlot s m b f).pwr = s.pwr := rfl
@[simp] theorem updSlot_clk (s : State) (m : Nat) (b : Bool) (f : Slot → Slot) : (updSlot s m b f).clk = s.clk := rfl
@[simp] theorem updSlot_tim (s : State) (m : Nat) (b : Bool) (f : Slot → Slot) : (updSlot s m b f).tim = s.tim := rfl
@[simp] theorem updSlot_isl (s : State) (m : Nat) (b : Bool) (f : Slot → Slot) : (updSlot s m b f).isl = s.isl := rfl
@[simp] theorem updSlot_outstanding (s : State) (m : Nat) (b : Bool) (f : Slot → Slot) : (updSlot s m b f).outstanding = s.outstanding := rfl
@[simp] theorem updSlot_flt (s : State) (m : Nat) (b : Bool) (f : Slot → Slot) : (updSlot s m b f).flt = s.flt := rfl
@[simp] theorem updSlot_cp (s : State) (m : Nat) (b : Bool) (f : Slot → Slot) : (updSlot s m b f).cp = s.cp := rfl
@[simp] theorem updSlot_win (s : State) (m : Nat) (b : Bool) (f : Slot → Slot) : (updSlot s m b f).win = s.win := rfl
@[simp] theorem updSlot_db (s : State) (m : Nat) (b : Bool) (f : Slot → Slot) : (updSlot s m b f).db = s.db := rfl
@[simp] theorem updSlot_slip0 (s : State) (m : Nat) (b : Bool) (f : Slot → Slot) : (updSlot s m b f).slip0 = s.slip0 := rfl
@[simp] theorem updSlot_slip1 (s : State) (m : Nat) (b : Bool) (f : Slot → Slot) : (updSlot s m b f).slip1 = s.slip1 := rfl
@[simp] theorem updSlot_sns (s : State) (m : Nat) (b : Bool) (f : Slot → Slot) : (updSlot s m b f).sns = s.sns := rfl
@[simp] theorem updSlot_iotXfer (s : State) (m : Nat) (b : Bool) (f : Slot → Slot) : (updSlot s m b f).iotXfer = s.iotXfer := rfl
@[simp] theorem updSlot_iotCfg (s : State) (m : Nat) (b : Bool) (f : Slot → Slot) : (updSlot s m b f).iotCfg = s.iotCfg := rfl
@[simp] theorem updSlot_hp (s : State) (m : Nat) (b : Bool) (f : Slot → Slot) : (updSlot s m b f).hp = s.hp := rfl
@[simp] theorem updSlot_sce (s : State) (m : Nat) (b : Bool) (f : Slot → Slot) : (updSlot s m b f).sce = s.sce := rfl
@[simp] theorem updSlot_sed (s : State) (m : Nat) (b : Bool) (f : Slot → Slot) : (updSlot s m b f).sed = s.sed := rfl
@[simp] theorem updSlot_qm (s : State) (m : Nat) (b : Bool) (f : Slot → Slot) : (updSlot s m b f).qm = s.qm := rfl
@[simp] theorem updSlot_scs (s : State) (m : Nat) (b : Bool) (f : Slot → Slot) : (updSlot s m b f).scs = s.scs := rfl
@[simp] theorem updSlot_scTmo (s : State) (m : Nat) (b : Bool) (f : Slot → Slot) : (updSlot s m b f).scTmo = s.scTmo := rfl
@[simp] theorem updSlot_engs (s : State) (m : Nat) (b : Bool) (f : Slot → Slot) : (updSlot s m b f).engs = s.engs := rfl
@[simp] theorem updSlot_sats (s : State) (m : Nat) (b : Bool) (f : Slot → Slot) : (updSlot s m b f).sats = s.sats := rfl
@[simp] theorem updSlot_satHit (s : State) (m : Nat) (b : Bool) (f : Slot → Slot) : (updSlot s m b f).satHit = s.satHit := rfl
@[simp] theorem updSlot_ldg (s : State) (m : Nat) (b : Bool) (f : Slot → Slot) : (updSlot s m b f).ldg = s.ldg := rfl
@[simp] theorem updSlot_cap (s : State) (m : Nat) (b : Bool) (f : Slot → Slot) : (updSlot s m b f).cap = { s.cap with slots := upd s.cap.slots (2 * m + b2n b) f } := rfl
@[simp] theorem updSlot_lc (s : State) (m : Nat) (b : Bool) (f : Slot → Slot) : (updSlot s m b f).lc = s.lc := rfl
@[simp] theorem updSlot_jtag (s : State) (m : Nat) (b : Bool) (f : Slot → Slot) : (updSlot s m b f).jtag = s.jtag := rfl
@[simp] theorem updSlot_tiles (s : State) (m : Nat) (b : Bool) (f : Slot → Slot) : (updSlot s m b f).tiles = s.tiles := rfl
@[simp] theorem updSlot_csis (s : State) (m : Nat) (b : Bool) (f : Slot → Slot) : (updSlot s m b f).csis = s.csis := rfl
@[simp] theorem updSlot_mem (s : State) (m : Nat) (b : Bool) (f : Slot → Slot) : (updSlot s m b f).mem = s.mem := rfl
@[simp] theorem updSlot_clay (s : State) (m : Nat) (b : Bool) (f : Slot → Slot) : (updSlot s m b f).clay = s.clay := rfl
@[simp] theorem updSlot_clayK (s : State) (m : Nat) (b : Bool) (f : Slot → Slot) : (updSlot s m b f).clayK = s.clayK := rfl
@[simp] theorem updSlot_clayZ0 (s : State) (m : Nat) (b : Bool) (f : Slot → Slot) : (updSlot s m b f).clayZ0 = s.clayZ0 := rfl
@[simp] theorem updSlot_clayZ1 (s : State) (m : Nat) (b : Bool) (f : Slot → Slot) : (updSlot s m b f).clayZ1 = s.clayZ1 := rfl
@[simp] theorem updSlot_scc (s : State) (m : Nat) (b : Bool) (f : Slot → Slot) : (updSlot s m b f).scc = s.scc := rfl
@[simp] theorem updSlot_ecc (s : State) (m : Nat) (b : Bool) (f : Slot → Slot) : (updSlot s m b f).ecc = s.ecc := rfl
@[simp] theorem updSlot_sccEcc (s : State) (m : Nat) (b : Bool) (f : Slot → Slot) : (updSlot s m b f).sccEcc = s.sccEcc := rfl
@[simp] theorem updSlot_wiping (s : State) (m : Nat) (b : Bool) (f : Slot → Slot) : (updSlot s m b f).wiping = s.wiping := rfl
@[simp] theorem updSlot_freeK (s : State) (m : Nat) (b : Bool) (f : Slot → Slot) : (updSlot s m b f).freeK = s.freeK := rfl
@[simp] theorem updSlot_pending (s : State) (m : Nat) (b : Bool) (f : Slot → Slot) : (updSlot s m b f).pending = s.pending := rfl

/-! ### updCsi -/

@[simp] theorem updCsi_fuses (s : State) (r : Csi) (f : CsiSt → CsiSt) : (updCsi s r f).fuses = s.fuses := rfl
@[simp] theorem updCsi_boot (s : State) (r : Csi) (f : CsiSt → CsiSt) : (updCsi s r f).boot = s.boot := rfl
@[simp] theorem updCsi_sel (s : State) (r : Csi) (f : CsiSt → CsiSt) : (updCsi s r f).sel = s.sel := rfl
@[simp] theorem updCsi_pwr (s : State) (r : Csi) (f : CsiSt → CsiSt) : (updCsi s r f).pwr = s.pwr := rfl
@[simp] theorem updCsi_clk (s : State) (r : Csi) (f : CsiSt → CsiSt) : (updCsi s r f).clk = s.clk := rfl
@[simp] theorem updCsi_tim (s : State) (r : Csi) (f : CsiSt → CsiSt) : (updCsi s r f).tim = s.tim := rfl
@[simp] theorem updCsi_isl (s : State) (r : Csi) (f : CsiSt → CsiSt) : (updCsi s r f).isl = s.isl := rfl
@[simp] theorem updCsi_outstanding (s : State) (r : Csi) (f : CsiSt → CsiSt) : (updCsi s r f).outstanding = s.outstanding := rfl
@[simp] theorem updCsi_flt (s : State) (r : Csi) (f : CsiSt → CsiSt) : (updCsi s r f).flt = s.flt := rfl
@[simp] theorem updCsi_cp (s : State) (r : Csi) (f : CsiSt → CsiSt) : (updCsi s r f).cp = s.cp := rfl
@[simp] theorem updCsi_win (s : State) (r : Csi) (f : CsiSt → CsiSt) : (updCsi s r f).win = s.win := rfl
@[simp] theorem updCsi_db (s : State) (r : Csi) (f : CsiSt → CsiSt) : (updCsi s r f).db = s.db := rfl
@[simp] theorem updCsi_slip0 (s : State) (r : Csi) (f : CsiSt → CsiSt) : (updCsi s r f).slip0 = s.slip0 := rfl
@[simp] theorem updCsi_slip1 (s : State) (r : Csi) (f : CsiSt → CsiSt) : (updCsi s r f).slip1 = s.slip1 := rfl
@[simp] theorem updCsi_sns (s : State) (r : Csi) (f : CsiSt → CsiSt) : (updCsi s r f).sns = s.sns := rfl
@[simp] theorem updCsi_iotXfer (s : State) (r : Csi) (f : CsiSt → CsiSt) : (updCsi s r f).iotXfer = s.iotXfer := rfl
@[simp] theorem updCsi_iotCfg (s : State) (r : Csi) (f : CsiSt → CsiSt) : (updCsi s r f).iotCfg = s.iotCfg := rfl
@[simp] theorem updCsi_hp (s : State) (r : Csi) (f : CsiSt → CsiSt) : (updCsi s r f).hp = s.hp := rfl
@[simp] theorem updCsi_sce (s : State) (r : Csi) (f : CsiSt → CsiSt) : (updCsi s r f).sce = s.sce := rfl
@[simp] theorem updCsi_sed (s : State) (r : Csi) (f : CsiSt → CsiSt) : (updCsi s r f).sed = s.sed := rfl
@[simp] theorem updCsi_qm (s : State) (r : Csi) (f : CsiSt → CsiSt) : (updCsi s r f).qm = s.qm := rfl
@[simp] theorem updCsi_scs (s : State) (r : Csi) (f : CsiSt → CsiSt) : (updCsi s r f).scs = s.scs := rfl
@[simp] theorem updCsi_scTmo (s : State) (r : Csi) (f : CsiSt → CsiSt) : (updCsi s r f).scTmo = s.scTmo := rfl
@[simp] theorem updCsi_engs (s : State) (r : Csi) (f : CsiSt → CsiSt) : (updCsi s r f).engs = s.engs := rfl
@[simp] theorem updCsi_sats (s : State) (r : Csi) (f : CsiSt → CsiSt) : (updCsi s r f).sats = s.sats := rfl
@[simp] theorem updCsi_satHit (s : State) (r : Csi) (f : CsiSt → CsiSt) : (updCsi s r f).satHit = s.satHit := rfl
@[simp] theorem updCsi_ldg (s : State) (r : Csi) (f : CsiSt → CsiSt) : (updCsi s r f).ldg = s.ldg := rfl
@[simp] theorem updCsi_cap (s : State) (r : Csi) (f : CsiSt → CsiSt) : (updCsi s r f).cap = s.cap := rfl
@[simp] theorem updCsi_lc (s : State) (r : Csi) (f : CsiSt → CsiSt) : (updCsi s r f).lc = s.lc := rfl
@[simp] theorem updCsi_jtag (s : State) (r : Csi) (f : CsiSt → CsiSt) : (updCsi s r f).jtag = s.jtag := rfl
@[simp] theorem updCsi_tiles (s : State) (r : Csi) (f : CsiSt → CsiSt) : (updCsi s r f).tiles = s.tiles := rfl
@[simp] theorem updCsi_csis (s : State) (r : Csi) (f : CsiSt → CsiSt) : (updCsi s r f).csis = upd s.csis (csiIx r) f := rfl
@[simp] theorem updCsi_mem (s : State) (r : Csi) (f : CsiSt → CsiSt) : (updCsi s r f).mem = s.mem := rfl
@[simp] theorem updCsi_clay (s : State) (r : Csi) (f : CsiSt → CsiSt) : (updCsi s r f).clay = s.clay := rfl
@[simp] theorem updCsi_clayK (s : State) (r : Csi) (f : CsiSt → CsiSt) : (updCsi s r f).clayK = s.clayK := rfl
@[simp] theorem updCsi_clayZ0 (s : State) (r : Csi) (f : CsiSt → CsiSt) : (updCsi s r f).clayZ0 = s.clayZ0 := rfl
@[simp] theorem updCsi_clayZ1 (s : State) (r : Csi) (f : CsiSt → CsiSt) : (updCsi s r f).clayZ1 = s.clayZ1 := rfl
@[simp] theorem updCsi_scc (s : State) (r : Csi) (f : CsiSt → CsiSt) : (updCsi s r f).scc = s.scc := rfl
@[simp] theorem updCsi_ecc (s : State) (r : Csi) (f : CsiSt → CsiSt) : (updCsi s r f).ecc = s.ecc := rfl
@[simp] theorem updCsi_sccEcc (s : State) (r : Csi) (f : CsiSt → CsiSt) : (updCsi s r f).sccEcc = s.sccEcc := rfl
@[simp] theorem updCsi_wiping (s : State) (r : Csi) (f : CsiSt → CsiSt) : (updCsi s r f).wiping = s.wiping := rfl
@[simp] theorem updCsi_freeK (s : State) (r : Csi) (f : CsiSt → CsiSt) : (updCsi s r f).freeK = s.freeK := rfl
@[simp] theorem updCsi_pending (s : State) (r : Csi) (f : CsiSt → CsiSt) : (updCsi s r f).pending = s.pending := rfl

/-! ### updSlip -/

@[simp] theorem updSlip_fuses (s : State) (p : Port) (f : Slip → Slip) : (updSlip s p f).fuses = s.fuses := by cases p <;> rfl
@[simp] theorem updSlip_boot (s : State) (p : Port) (f : Slip → Slip) : (updSlip s p f).boot = s.boot := by cases p <;> rfl
@[simp] theorem updSlip_sel (s : State) (p : Port) (f : Slip → Slip) : (updSlip s p f).sel = s.sel := by cases p <;> rfl
@[simp] theorem updSlip_pwr (s : State) (p : Port) (f : Slip → Slip) : (updSlip s p f).pwr = s.pwr := by cases p <;> rfl
@[simp] theorem updSlip_clk (s : State) (p : Port) (f : Slip → Slip) : (updSlip s p f).clk = s.clk := by cases p <;> rfl
@[simp] theorem updSlip_tim (s : State) (p : Port) (f : Slip → Slip) : (updSlip s p f).tim = s.tim := by cases p <;> rfl
@[simp] theorem updSlip_isl (s : State) (p : Port) (f : Slip → Slip) : (updSlip s p f).isl = s.isl := by cases p <;> rfl
@[simp] theorem updSlip_outstanding (s : State) (p : Port) (f : Slip → Slip) : (updSlip s p f).outstanding = s.outstanding := by cases p <;> rfl
@[simp] theorem updSlip_flt (s : State) (p : Port) (f : Slip → Slip) : (updSlip s p f).flt = s.flt := by cases p <;> rfl
@[simp] theorem updSlip_cp (s : State) (p : Port) (f : Slip → Slip) : (updSlip s p f).cp = s.cp := by cases p <;> rfl
@[simp] theorem updSlip_win (s : State) (p : Port) (f : Slip → Slip) : (updSlip s p f).win = s.win := by cases p <;> rfl
@[simp] theorem updSlip_db (s : State) (p : Port) (f : Slip → Slip) : (updSlip s p f).db = s.db := by cases p <;> rfl
@[simp] theorem updSlip_sns (s : State) (p : Port) (f : Slip → Slip) : (updSlip s p f).sns = s.sns := by cases p <;> rfl
@[simp] theorem updSlip_iotXfer (s : State) (p : Port) (f : Slip → Slip) : (updSlip s p f).iotXfer = s.iotXfer := by cases p <;> rfl
@[simp] theorem updSlip_iotCfg (s : State) (p : Port) (f : Slip → Slip) : (updSlip s p f).iotCfg = s.iotCfg := by cases p <;> rfl
@[simp] theorem updSlip_hp (s : State) (p : Port) (f : Slip → Slip) : (updSlip s p f).hp = s.hp := by cases p <;> rfl
@[simp] theorem updSlip_sce (s : State) (p : Port) (f : Slip → Slip) : (updSlip s p f).sce = s.sce := by cases p <;> rfl
@[simp] theorem updSlip_sed (s : State) (p : Port) (f : Slip → Slip) : (updSlip s p f).sed = s.sed := by cases p <;> rfl
@[simp] theorem updSlip_qm (s : State) (p : Port) (f : Slip → Slip) : (updSlip s p f).qm = s.qm := by cases p <;> rfl
@[simp] theorem updSlip_scs (s : State) (p : Port) (f : Slip → Slip) : (updSlip s p f).scs = s.scs := by cases p <;> rfl
@[simp] theorem updSlip_scTmo (s : State) (p : Port) (f : Slip → Slip) : (updSlip s p f).scTmo = s.scTmo := by cases p <;> rfl
@[simp] theorem updSlip_engs (s : State) (p : Port) (f : Slip → Slip) : (updSlip s p f).engs = s.engs := by cases p <;> rfl
@[simp] theorem updSlip_sats (s : State) (p : Port) (f : Slip → Slip) : (updSlip s p f).sats = s.sats := by cases p <;> rfl
@[simp] theorem updSlip_satHit (s : State) (p : Port) (f : Slip → Slip) : (updSlip s p f).satHit = s.satHit := by cases p <;> rfl
@[simp] theorem updSlip_ldg (s : State) (p : Port) (f : Slip → Slip) : (updSlip s p f).ldg = s.ldg := by cases p <;> rfl
@[simp] theorem updSlip_cap (s : State) (p : Port) (f : Slip → Slip) : (updSlip s p f).cap = s.cap := by cases p <;> rfl
@[simp] theorem updSlip_lc (s : State) (p : Port) (f : Slip → Slip) : (updSlip s p f).lc = s.lc := by cases p <;> rfl
@[simp] theorem updSlip_jtag (s : State) (p : Port) (f : Slip → Slip) : (updSlip s p f).jtag = s.jtag := by cases p <;> rfl
@[simp] theorem updSlip_tiles (s : State) (p : Port) (f : Slip → Slip) : (updSlip s p f).tiles = s.tiles := by cases p <;> rfl
@[simp] theorem updSlip_csis (s : State) (p : Port) (f : Slip → Slip) : (updSlip s p f).csis = s.csis := by cases p <;> rfl
@[simp] theorem updSlip_mem (s : State) (p : Port) (f : Slip → Slip) : (updSlip s p f).mem = s.mem := by cases p <;> rfl
@[simp] theorem updSlip_clay (s : State) (p : Port) (f : Slip → Slip) : (updSlip s p f).clay = s.clay := by cases p <;> rfl
@[simp] theorem updSlip_clayK (s : State) (p : Port) (f : Slip → Slip) : (updSlip s p f).clayK = s.clayK := by cases p <;> rfl
@[simp] theorem updSlip_clayZ0 (s : State) (p : Port) (f : Slip → Slip) : (updSlip s p f).clayZ0 = s.clayZ0 := by cases p <;> rfl
@[simp] theorem updSlip_clayZ1 (s : State) (p : Port) (f : Slip → Slip) : (updSlip s p f).clayZ1 = s.clayZ1 := by cases p <;> rfl
@[simp] theorem updSlip_scc (s : State) (p : Port) (f : Slip → Slip) : (updSlip s p f).scc = s.scc := by cases p <;> rfl
@[simp] theorem updSlip_ecc (s : State) (p : Port) (f : Slip → Slip) : (updSlip s p f).ecc = s.ecc := by cases p <;> rfl
@[simp] theorem updSlip_sccEcc (s : State) (p : Port) (f : Slip → Slip) : (updSlip s p f).sccEcc = s.sccEcc := by cases p <;> rfl
@[simp] theorem updSlip_wiping (s : State) (p : Port) (f : Slip → Slip) : (updSlip s p f).wiping = s.wiping := by cases p <;> rfl
@[simp] theorem updSlip_freeK (s : State) (p : Port) (f : Slip → Slip) : (updSlip s p f).freeK = s.freeK := by cases p <;> rfl
@[simp] theorem updSlip_pending (s : State) (p : Port) (f : Slip → Slip) : (updSlip s p f).pending = s.pending := by cases p <;> rfl

/-- The port's own state changes. -/
@[simp] theorem slipSt_updSlip (s : State) (p : Port) (f : Slip → Slip) : slipSt (updSlip s p f) p = f (slipSt s p) := by
  cases p <;> rfl

/-- The other port's state stays. -/
theorem slipSt_updSlip_ne (s : State) {p q : Port} (f : Slip → Slip) (h : q ≠ p) : slipSt (updSlip s p f) q = slipSt s q := by
  cases p <;> cases q <;> first | rfl | exact absurd rfl h

/-! ### Elements of a changed list -/

/-- A list keeps its length. -/
@[simp] theorem upd_length {α : Type} (l : List α) (i : Nat) (f : α → α) : (upd l i f).length = l.length := by
  induction l generalizing i with
  | nil => rfl
  | cons x xs ih => cases i <;> simp [upd, ih]

/-- The changed element. -/
theorem nth_upd_same {α : Type} (l : List α) (i : Nat) (f : α → α) (d : α) (h : i < l.length) :
    nth (upd l i f) i d = f (nth l i d) := by
  induction l generalizing i with
  | nil => simp at h
  | cons x xs ih =>
    cases i with
    | zero => rfl
    | succ k => simpa [upd, nth] using ih k (by simpa using h)

/-- Every other element stays. -/
theorem nth_upd_ne {α : Type} (l : List α) (i j : Nat) (f : α → α) (d : α) (h : j ≠ i) :
    nth (upd l i f) j d = nth l j d := by
  induction l generalizing i j with
  | nil => rfl
  | cons x xs ih =>
    cases i with
    | zero => cases j with
      | zero => exact absurd rfl h
      | succ m => rfl
    | succ k => cases j with
      | zero => rfl
      | succ m => simpa [upd, nth] using ih k m (by omega)

end Sys2Proof.Machine
end

