-- ==== Sys2Proof/Laws/Ops.lean ====
section
/-! SUPPORT. What the shared operations can do: interrupts, wake events, PMIC scripts, fault records, write frames, window writes. -/

namespace Sys2Proof.Machine

open Sys2Proof

/-! ### Interrupts -/

/-- An ECHO goes to a Slip port only. -/
theorem echoOn_frame (s : State) (p : Port) : echoOn s p = { s with slip0 := (echoOn s p).slip0, slip1 := (echoOn s p).slip1 } := by
  unfold echoOn
  split
  · cases p <;> rfl
  · rfl

/-- New interrupt registers, and ECHO frames. -/
theorem setInt_frame (s : State) (a b : BitVec 13) :
    setInt s a b = { s with cp := { s.cp with intStatus := a, intEn := b },
                            slip0 := (setInt s a b).slip0, slip1 := (setInt s a b).slip1 } := by
  unfold setInt
  dsimp only
  split
  · rfl
  · rw [echoOn_frame, echoOn_frame]
    rfl

/-- An interrupt source sets its bit. -/
theorem raiseInt_frame (s : State) (k : Nat) :
    raiseInt s k = { s with cp := { s.cp with intStatus := s.cp.intStatus ||| BitVec.ofNat 13 (2 ^ k) },
                            slip0 := (raiseInt s k).slip0, slip1 := (raiseInt s k).slip1 } := setInt_frame s _ _

@[simp] theorem raiseInt_cp (s : State) (k : Nat) :
    (raiseInt s k).cp = { s.cp with intStatus := s.cp.intStatus ||| BitVec.ofNat 13 (2 ^ k) } := by rw [raiseInt_frame]

@[simp] theorem raiseInt_pwr (s : State) (k : Nat) : (raiseInt s k).pwr = s.pwr := by rw [raiseInt_frame]

@[simp] theorem setInt_pwr (s : State) (a b : BitVec 13) : (setInt s a b).pwr = s.pwr := by rw [setInt_frame]

@[simp] theorem setInt_cp (s : State) (a b : BitVec 13) : (setInt s a b).cp = { s.cp with intStatus := a, intEn := b } := by
  rw [setInt_frame]

/-! ### Scripts, exits, reversals, wake events -/

theorem startScript_frame (s : State) (k : Nat) : startScript s k = { s with pwr := (startScript s k).pwr } := rfl

theorem afterPg_frame (s : State) : afterPg s = { s with pwr := (afterPg s).pwr } := by
  unfold afterPg
  split
  · split <;> rfl
  · rfl

theorem waitPg_frame (s : State) : waitPg s = { s with pwr := (waitPg s).pwr } := by
  unfold waitPg
  dsimp only
  split
  · exact (afterPg_frame _).trans rfl
  · rfl

theorem startWatchUp_frame (s : State) : startWatchUp s = { s with pwr := (startWatchUp s).pwr } := by
  unfold startWatchUp
  split
  · exact waitPg_frame s
  · rfl

theorem beginExit_frame (s : State) : beginExit s = { s with pwr := (beginExit s).pwr } := by
  unfold beginExit
  dsimp only
  split
  · rw [waitPg_frame]; rfl
  · rw [startWatchUp_frame]; rfl
  · rfl

theorem beginReverse_frame (s : State) (ap : Nat) (c : Cut) (r : Option Nat) :
    beginReverse s ap c r = { s with pwr := (beginReverse s ap c r).pwr } := by
  unfold beginReverse
  dsimp only
  split
  · split
    · rw [startWatchUp_frame]; rfl
    · rw [waitPg_frame]; rfl
  · rfl

theorem recordWake_frame (s : State) (k : Nat) :
    recordWake s k = { s with pwr := { s.pwr with wakeSrc := s.pwr.wakeSrc ||| BitVec.ofNat 6 (2 ^ k) }, cp := (recordWake s k).cp,
                              slip0 := (recordWake s k).slip0, slip1 := (recordWake s k).slip1 } := by
  unfold recordWake
  rw [raiseInt_frame]
  rfl

/-- A wake event reaches the power sequencer, the interrupt registers and ECHO frames. -/
theorem fireWake_frame (s : State) (k : Nat) (st : Bool) :
    fireWake s k st = { s with pwr := (fireWake s k st).pwr, cp := (fireWake s k st).cp,
                               slip0 := (fireWake s k st).slip0, slip1 := (fireWake s k st).slip1 } := by
  unfold fireWake
  split
  · split
    · rw [recordWake_frame]
    · split
      · split
        · rw [beginExit_frame, recordWake_frame]
        · rw [recordWake_frame]
      · rfl
  · dsimp only
    split
    · rw [recordWake_frame]
    · split
      · rw [recordWake_frame]; rfl
      · split
        · rw [beginReverse_frame, recordWake_frame]
        · split
          · rw [recordWake_frame]; rfl
          · rw [recordWake_frame]
  · dsimp only
    split
    · rw [recordWake_frame]; rfl
    · rw [recordWake_frame]
  · rw [recordWake_frame]

/-! ### Fault records -/

/-- A record reaches the collector, the interrupt registers, the sequencer, ECHO frames, and the time unit's stamp mark. -/
theorem storeRec_frame (s : State) (r : FltRec) :
    storeRec s r = { s with flt := (storeRec s r).flt, tim := (storeRec s r).tim, pwr := (storeRec s r).pwr,
                            cp := (storeRec s r).cp, slip0 := (storeRec s r).slip0, slip1 := (storeRec s r).slip1 } := by
  unfold storeRec
  dsimp only
  split
  · rw [fireWake_frame, raiseInt_frame]
    rfl
  · rfl

theorem deviceFault_frame (s : State) (code cas : Byte) (i e : Nat) :
    deviceFault s code cas i e =
      { s with flt := (deviceFault s code cas i e).flt, tim := (deviceFault s code cas i e).tim,
               pwr := (deviceFault s code cas i e).pwr, cp := (deviceFault s code cas i e).cp,
               slip0 := (deviceFault s code cas i e).slip0, slip1 := (deviceFault s code cas i e).slip1 } := storeRec_frame s _

/-- What the collector holds after a record: the record at its end, or one more lost. -/
theorem storeRec_flt (s : State) (r : FltRec) :
    (storeRec s r).flt =
      if s.flt.recs.length < 32 then { s.flt with recs := s.flt.recs ++ [r], total := satInc 0xFFFF s.flt.total }
      else { s.flt with lost := satInc 0xFFFF s.flt.lost, lcode := r.code } := by
  unfold storeRec
  dsimp only
  by_cases h : s.flt.recs.length < 32
  · rw [if_pos (show (stamped s).flt.recs.length < 32 from h), if_pos h, fireWake_frame]
    show (raiseInt _ _).flt = _
    rw [raiseInt_frame]
    rfl
  · rw [if_neg (show ¬ (stamped s).flt.recs.length < 32 from h), if_neg h]
    rfl

/-! ### Write frames -/

/-- What turns a write away does not depend on FIO. -/
@[simp] theorem writeBar_askFio (s : State) (i : Nat) : writeBar (askFio s) i = writeBar s i := rfl

/-- A write that reaches its register: FIO runs, the register acts, the result stands in `CP_LINK`. -/
theorem wframe_reaches {f : Fr} {idx : Byte} {v : Word} {act : RegAct} {s : State} (h : Reaches f idx v s) :
    wframe f idx v act s = linkWrite (act (askFio s)).1 idx (act (askFio s)).2 f.seq := by
  obtain ⟨h1, h2, h3, h4⟩ := h
  simp [wframe, h1, h2, h3, h4]

/-- A write frame to a port that does not serve, or that is not addressed, changes nothing. -/
theorem wframe_unserved {f : Fr} {idx : Byte} {v : Word} {act : RegAct} {s : State}
    (h : cpServes s = false ∨ addressed s f.addr = false) : wframe f idx v act s = s := by
  rcases h with h | h <;> simp [wframe, h]

/-- A read frame to a port that does not serve, out of manufacturing test mode, changes nothing. -/
theorem readFrame_unserved {q : BitVec 4} {early : Bool} {a : BitVec 7} {i : Byte} {s : State} (h : cpServes s = false)
    (hm : s.boot.mfg = false) : readFrame q early a i s = s := by
  simp [readFrame, h, hm]

/-- A window write that reaches its word. -/
theorem winRow_reaches {a : Nat} {v : Word} {s : State} (h : WinReaches a s) :
    winRow a v s = .next (winWrite a v (lateNow s a) s).1 := by
  obtain ⟨h1, h2, _⟩ := h
  simp [winRow, h1, h2]

/-- A window write that does not reach its word changes nothing. -/
theorem winRow_waits {a : Nat} {v : Word} {s : State} (h : cpServes s = false ∨ winWaits s a true (lateNow s a) = true) : winRow a v s = .next s := by
  rcases h with h | h <;> simp [winRow, h]

/-- A window write that reaches a block register. -/
theorem winRow_block {a n off : Nat} {v : Word} {s : State} (h : WinReaches a s) (hr : regionOf a = .block n off) :
    winRow a v s = .next (blockWrite n off v s).1 := by
  rw [winRow_reaches h]
  simp [winWrite, h.2.2, hr]

end Sys2Proof.Machine
end

