-- ==== Sys2Proof/Tests/Slice0.lean ====
section
/-! SUPPORT. The model's own tests: the ill-formed terms that `Instr.wf` refuses, and for every statement with hypotheses a state
and operands that meet them all. -/

namespace Sys2Proof.Tests

open Sys2Proof Sys2Proof.Machine

set_option Elab.async false
set_option linter.unusedVariables false

/-- A running block: every domain on, time exact enough for nothing to wait. -/
def wRun : State :=
  { State.reset with
    pwr := { Pwr.reset with
      st := .run, tgt := .run, seq := .stable, pd := many 24 .on, pwrGood := true, awaitPg := false, admission := true, supRdy := true,
      porUp := false }
    clk := { Clk.reset with xt24Run := true, pllFio := true, fioRun := true }
    win := { Win.reset with pbusy := false }
    jtag := { Jtag.reset with trst := false } }

/-- The same with one unit changed. -/
def wFuses (f : Fuses → Fuses) : State := { wRun with fuses := f wRun.fuses }
def wBoot (f : Boot → Boot) : State := { wRun with boot := f wRun.boot }
def wSel (f : Sel → Sel) : State := { wRun with sel := f wRun.sel }
def wPwr (f : Pwr → Pwr) : State := updPwr wRun f
def wClk (f : Clk → Clk) : State := updClk wRun f
def wTim (f : Tim → Tim) : State := updTim wRun f
def wHp (f : Hp → Hp) : State := updHp wRun f
def wWin (f : Win → Win) : State := updWin wRun f
def wSlip (f : Slip → Slip) : State := updSlip wRun .slp0 f
def wChan (f : Chan → Chan) : State := updChan wRun 0 f
def wSns (f : Sns → Sns) : State := updSns wRun f
def wSce (f : Sce → Sce) : State := updSce wRun f
def wSed (f : Sed → Sed) : State := updSed wRun f
def wQm (f : Qm → Qm) : State := updQm wRun f
def wLdg (f : Ldg → Ldg) : State := updLdg wRun f
def wCap (f : Cap → Cap) : State := updCap wRun f
def wLc (f : Lc → Lc) : State := updLc wRun f
def wJtag (f : Jtag → Jtag) : State := { wRun with jtag := f wRun.jtag }
def wTile (f : TileSt → TileSt) : State := updTile wRun .t0 f
def wIsl (n : Nat) (f : Isl → Isl) : State := { wRun with isl := upd wRun.isl n f }

/-- A write frame of a value to an index, and a read frame, as they arrive. -/
def wFr (idx : Byte) (v : Word) : Fr := ⟨3, writeCrc 3 idx v, 0⟩
def wRd : Rd := ⟨5, false, 0, []⟩

/-- The sequencer at a step of an entry to a state, from a state. -/
def wSeq (st tgt : PState) (q : Seq) : State := wPwr (fun p => { p with st := st, tgt := tgt, seq := q })

/-- I59 is gated off with its domain: a stamp has no offset. -/
def wNoI59 : State := wPwr (fun p => { p with pd := upd p.pd 2 (fun _ => .off) })

/-- PD17 is off as well: no sediment is kept. -/
def wNoSed : State := wPwr (fun p => { p with pd := upd (upd p.pd 2 (fun _ => .off)) 17 (fun _ => .off) })

/-- Port 0 up, with one thing changed. -/
def wUp (f : Slip → Slip) : State := wSlip (fun x => f { x with ctrl := 1, state := .up })

/-- A frame of n payload bytes 1, 2, … -/
def wFrame (typ : BitVec 4) (vc : BitVec 2) (q : BitVec 14) (n : Nat) : SlipFrame :=
  withCrc ⟨typ, vc, q, BitVec.ofNat 13 n, 0, 7, 0, false, 0, 0, 0, (List.range n).map (fun i => BitVec.ofNat 8 (i + 1)), 0⟩

/-- A sent frame with a number. -/
def wSent (n : BitVec 16) : TxFrame := ⟨{ wFrame 4 0 0 4 with seq := n }, 0, true⟩

/-- A good TS set. -/
def wTs : TsSet := ⟨true, false, true, 1, 0, true, false, 0⟩

/-- A DATA queue of 16 items of 64 bytes at the base of TSR. -/
def wData : QDesc := { QDesc.unused with cls := clsData, isize := 2, ldepth := 3 }

/-- Port 0 up, queue 1 bound to it for ingress. -/
def wIn (f : Slip → Slip) : State :=
  updQm (wUp (fun x => f { x with bind := upd x.bind 0 (fun _ => 0x80000001) })) (fun m => { m with qdt := [(1, { wData with isize := 0 })] })

/-- The words of a command (12 R486). -/
def wWords (opc f mode : Nat) (a b o : Word) (d0 d1 d2 d3 : Nat) (p0 p1 : Word) : List Word :=
  [BitVec.ofNat 32 (opc + f * 0x100 + mode * 0x100000), a, b, o, BitVec.ofNat 32 (d0 + d1 * 0x10000), BitVec.ofNat 32 (d2 + d3 * 0x10000), p0, p1]

/-- A control command. -/
def wCtl (opc : Nat) (p0 p1 : Word) : List Word := wWords opc 0 0 0 0 0 0 0 0 0 p0 p1

/-- Words in memory from an address upward. -/
def wStore (s : State) (a : Nat) (ws : List Word) : State :=
  { s with mem := zsetMany s.mem a (ws.flatMap (fun w => leBytes 4 w.toNat)) }

/-- An image of one lane with queues 1 (read), 2 (written), 3 (read, over a tile link), counters 0 (JOB) and 1 (PLAIN). -/
def wImg (e : Eng) : Img :=
  { Img.empty with
    lanes := [⟨e, 0, 2⟩], queues := [(1, wData), (2, wData), (3, { wData with tlink := 1 })],
    counters := [(0, ⟨true, true, 20, 0⟩), (1, ⟨true, false, 20, 0⟩)], produces := [2], consumes := [1, 3], sems := [0, 1],
    tsr := (0x10010000, 64) }

/-- The lane of that image at its first command. -/
def wLane : Lane := freshLane 0 0 0x10010000 2

/-- A job with that image runs, its lane on engine e stands at the command of the given words. -/
def wJob (e : Eng) (ws : List Word) : State :=
  wStore { wRun with
    ldg := { wRun.ldg with
      entries := upd wRun.ldg.entries 0 (fun _ => { Entry.free with st := .running, job := 9, budget := 1, started := true }), used := 1 }
    cap := { wRun.cap with
      slots := upd wRun.cap.slots 0 (fun _ => { Slot.empty with st := .ready, img := wImg e }),
      active := upd wRun.cap.active 0 (fun _ => some false) }
    qm := { wRun.qm with
      qdt := [(1, { wData with base := 16, wp := 4, pp := 4 }), (2, { wData with base := 32 }),
              (3, { wData with base := 48, tlink := 1, wp := 4, pp := 4 })] }
    scs := [(0, ⟨true, true, 20, 5⟩), (1, ⟨true, false, 20, 5⟩)]
    engs := upd wRun.engs (engIx e) (fun g => { g with cur := some wLane })
    tiles := wRun.tiles.map (fun t => { t with link := .up }) } 0x10010000 ws

/-- The same with the lane's stage changed. -/
def wStage (e : Eng) (st : Stage) (ws : List Word) : State := setLane (wJob e ws) e (fun l => { l with stage := st })

/-- The SCE runs an inference, its lane at the command of the given words. -/
def wSceCmd (ws : List Word) : State :=
  wStore { wSce (fun c => { c with run := true, loaded := true, busy := true, cbase := sceModel, ncmd := 2 }) with
    engs := upd wRun.engs 7 (fun g => { g with cur := some (freshLane 0 0 sceModel 2) }) } sceModel ws

/-- A command that an engine would start, with a further property, from one evaluation. -/
theorem start_witness {s : State} {e : Eng} {opc : Nat} {P : Start → Prop} [DecidablePred P]
    (h : (match startOf s e with
      | some x => decide (s.wf ∧ engineReady s e = true ∧ rangeHeld s (x.l.base + x.l.off) 32 = false ∧ fetchEcc s x.l = false ∧
          illegal s e x.l x.en x.c = none ∧ x.c.opc = opc ∧ onFailedTile s x.os = false ∧ mustWait s e x.en x.os = false ∧ P x)
      | none => false) = true) : ∃ x, Starts s e opc x ∧ P x := by
  split at h
  · rename_i x hx
    obtain ⟨h1, h2, h3, h4, h5, h6, h7, h8, h9⟩ := of_decide_eq_true h
    exact ⟨x, ⟨h1, h2, hx, h3, h4, h5, h6, h7, h8⟩, h9⟩
  · cases h

/-- The command that an engine stands at, with a further property, from one evaluation. -/
theorem startOf_witness {s : State} {e : Eng} {P : Start → Prop} [DecidablePred P]
    (h : (match startOf s e with
      | some x => decide (P x)
      | none => false) = true) : ∃ x, startOf s e = some x ∧ P x := by
  split at h
  · rename_i x hx
    exact ⟨x, hx, of_decide_eq_true h⟩
  · cases h

/-- The next state of an outcome, when there is one. -/
def wNext (s : State) (o : Host.Outcome State Fault Refusal) : State :=
  match o with
  | .next t => t
  | _ => s

theorem next_witness {s : State} {o : Host.Outcome State Fault Refusal}
    (h : (match o with
      | .next _ => true
      | _ => false) = true) : o = .next (wNext s o) := by
  cases o <;> first | rfl | cases h

/-- Hardpan armed and released, rule 0 a HALT rule that trips above 256 at once. -/
def wArmed : State :=
  wHp (fun h => { h with rules := upd (upd h.rules 0 (fun _ => 0x80000000)) 1 (fun _ => 0x01000000),
                         shadow := upd (upd h.shadow 0 (fun _ => 0x7FFFFFFF)) 1 (fun _ => 0xFEFFFFFF), armed := true, released := true,
                         stLast := true, stRan := true })

/-- Operands in memory at 0x8000 and 0x8100, QP blocks at 0x8200 and 0x8220. -/
def wMem (s : State) : State :=
  let none' : Word := 0xC0000000
  wStore (wStore (wStore s 0x10008000 [0x40C0BF80, 0x3F804000, 0x04030201, 0xFCFDFEFF, 0x00080706, 0x11223344]) 0x10008100
    [0x40003F80, 0x02010201, 0xFF01FF01, 7]) 0x10008200
    ([0, none', none', 0x9100, 0x9140, none', none', none'] ++ [0, none', none', 0x8240, 0x8280, none', none', none'] ++
     [0x80, 0x7F, 0, 0] ++ List.replicate 12 0 ++ [0x3F804000])

/-- Receiver 0 enabled; filter 0 takes RAW8 frames of two lines of 64 bytes on channel 0 into queue 5. -/
def wCsi (f : CsiSt → CsiSt) : State :=
  updCsi (wQm (fun m => { m with qdt := [(5, { wData with cls := clsSrc, scope := scTxn })] })) .r0 (fun c =>
    f { c with ctrl := 1, f0 := upd c.f0 0 (fun _ => 0x8A800005), f1 := upd c.f1 0 (fun _ => 0x00020040) })

/-- The frame that filter 0 has open, after n lines. -/
def wCsiFrame (n : Nat) : CsiFrame := ⟨7, ⟨100, 0⟩, n, false, [], 2 - n⟩

/-- A descriptor of job 5 of model 0 in queue 4, in service. -/
def wAdmit (job : Word) : State :=
  let s := wJob .te0 []
  wStore (updQm { s with ldg := { s.ldg with service := [(4, 1)] } } (fun m =>
    { m with qdt := m.qdt ++ [(4, { wData with cls := clsCmd, base := 64, wp := 1, pp := 1 })] })) 0x10004000 [job]

/-- The job of ledger entry 0 in another state, no lane on an engine. -/
def wEntry (f : Entry → Entry) : State :=
  { updEntry (wJob .te0 []) 0 f with engs := wRun.engs }

/-- The words of a capsule with an image of one lane of one command (15 R595, R601). -/
def wCapsule (flags lane nin : Word) (cmd : List Word) : List Word :=
  [0x5043584F, 0x00800001, flags, 0, 192, 0, 1, 2] ++ List.replicate 24 0 ++
  [0x314D4958, 0x100, nin, 256, 0, 0, 0, 0, 128, 64, 192, 0, 192, 0, 192, 0, 192, 0] ++ List.replicate 14 0 ++
  [32, lane, 0, 0, 0, 0, 0, 0] ++ cmd

/-- A capsule staged at 0x1010_0000, the image to stand at the start of TSR. -/
def wStaged (ws : List Word) : State :=
  wStore (wCap (fun c => { c with addr := 0x10100000, len := 320, plTsr := 0x10000000 })) 0x10100000 ws

/-- A Loam image whose lane commits; a silt image that copies 64 input bytes to the result. -/
def wLoam : State := wStaged (wCapsule 0 0x00010001 0 (wCtl 0x03 0 0))
def wSilt : State := wStaged (wCapsule 1 0x00010003 0x00200000 (wWords 0x33 0x305 0 0x18000000 0 0x1807F700 64 1 0 0 0x06004000 0))

/-- The install of what is staged, past its checks. -/
def wInst (s : State) (silt : Bool) : State :=
  updCap s (fun c => { c with inst := some ⟨0, false, none, stagedDigest (staged s), .empty, silt⟩ })

/-- What the check found. -/
def wBad : LoadFault := ⟨0x34, 1, 128, none, 21⟩

/-- An install that a check has failed. -/
def wBadInst : State :=
  wCap (fun c => { c with inst := some ⟨3, true, some wBad, 0, .empty, false⟩ })

theorem ok_witness {α : Type} {x : Chk α} {P : α → Prop} [DecidablePred P]
    (h : (match x with
      | .ok p => decide (P p)
      | .error _ => false) = true) : ∃ p, x = .ok p ∧ P p := by
  cases x with
  | ok p => exact ⟨p, rfl, of_decide_eq_true h⟩
  | error e => cases h

/-! Ill-formed terms, refused by the check; a good term of each, taken. -/

theorem test_wf_write_command : Instr.wf (.cpInvalidCommand 0x33) = false := by decide
theorem test_wf_read_command : Instr.wf (.cpInvalidCommand 0xC0) = false := by decide
theorem test_wf_invalid_command : Instr.wf (.cpInvalidCommand 0x5A) = true := by decide
theorem test_wf_item_length : Instr.wf (.itemFrameReceive .slp0 { wFrame 1 1 1 16 with len := 15 }) = false := by decide +kernel
theorem test_wf_item_type : Instr.wf (.itemFrameReceive .slp0 (wFrame 4 0 0 4)) = false := by decide +kernel
theorem test_wf_item : Instr.wf (.itemFrameReceive .slp0 (wFrame 1 1 1 16)) = true := by decide +kernel
theorem test_wf_ping_channel : Instr.wf (.pingReceive .slp1 (wFrame 4 1 0 4)) = false := by decide +kernel
theorem test_wf_ping_type : Instr.wf (.pingReceive .slp1 (wFrame 5 0 0 4)) = false := by decide +kernel
theorem test_wf_pong_type : Instr.wf (.pongReceive .slp0 (wFrame 4 0 0 4)) = false := by decide +kernel
theorem test_wf_reserved_is_item : Instr.wf (.reservedTypeFrameReceive .slp0 (wFrame 1 0 0 4)) = false := by decide +kernel
theorem test_wf_reserved_is_ping : Instr.wf (.reservedTypeFrameReceive .slp0 (wFrame 4 0 0 4)) = false := by decide +kernel
theorem test_wf_sample_bytes : Instr.wf (.sampleDone 0 (.bytes [1, 2, 3, 4, 5, 6, 7, 8, 9])) = false := by decide
theorem test_wf_sample_no_code : Instr.wf (.sampleDone 0 (.adc [] true)) = false := by decide
theorem test_wf_sample_codes : Instr.wf (.sampleDone 15 (.adc [1, 2, 3, 4, 5, 6, 7, 8, 9] true)) = false := by decide
theorem test_wf_transfer_bytes : Instr.wf (.manualTransferDone false (.ok [1, 2, 3, 4, 5, 6, 7, 8, 9]) false) = false := by decide
theorem test_wf_extest_cell : Instr.wf (.extest [(483, true), (484, false)]) = false := by decide
theorem test_wf_preload_cell : Instr.wf (.samplePreload [(484, true)]) = false := by decide
theorem test_wf_csi_line : Instr.wf (.csiLine .r0 ⟨0, false, 0x2A, false, true, List.replicate 0x10000 0⟩) = false := by decide +kernel

/-- An ill-formed term stops under its name. -/
theorem test_ill_formed_stops : (match step { State.reset with pending := [.cpInvalidCommand 0x33] } with
    | .fault .illFormed => true
    | _ => false) = true := by decide +kernel

/-- With nothing pending the block idles (log 20). -/
theorem test_idle : (match step State.reset with
    | .next t => decide (t = State.reset)
    | _ => false) = true := by decide +kernel

/-- The operand of a role of a command. -/
def wOpd (x : Start) (r : Role) : Opd := (opdRole x.os r).getD (tensor r 0 false 0)

/-- Port 0 up with queue 1, of two published items, bound to it for egress. -/
def wEgress : State :=
  updQm (wUp (fun x => { x with bind := upd x.bind 0 (fun _ => 0xC0000001), lastVc2 := true, peerCum := [0, 100, 100] })) (fun m =>
    { m with qdt := [(1, { wData with isize := 0, wp := 2, pp := 2 })] })

theorem evConsume_empty (s : State) (h : s.qm.evq = []) :
    evConsume s = updQd (updQm s (fun m => { m with evq := m.evq.drop 0, evK := m.evK + 1 })) 16383 (fun d => d.consume 0) := by
  have h0 : Nat.min (Config.eventsConsumed s.qm.evK) 0 = 0 := Nat.min_zero _
  simp only [evConsume, h, List.length_nil, h0]

theorem witness_StepRunsTheFrontCommand_2 : ∃ (s : State), s.pending = [] :=
  ⟨State.reset, rfl⟩

theorem witness_CommandsLeaveTheQueue_1 : ∃ (c : Instr) (s : State) (t : State), exec c s = .next t :=
  ⟨.slowTick, wRun, wNext wRun (exec .slowTick wRun), next_witness (by decide +kernel)⟩

theorem witness_StepKeepsMemoriesCanonical_1 : ∃ (s : State) (t : State), s.memOk ∧ step s = .next t :=
  ⟨{ wRun with pending := [.slowTick, .abortPoint ⟨false, false⟩] }, wNext wRun (step
    ({ wRun with pending := [.slowTick, .abortPoint ⟨false, false⟩] })), by decide +kernel, next_witness (by decide +kernel)⟩

theorem witness_StepKeepsTheSizes_1 : ∃ (s : State) (t : State), s.wf ∧ step s = .next t :=
  ⟨{ wRun with pending := [.slowTick, .abortPoint ⟨false, false⟩] }, wNext wRun (step
    ({ wRun with pending := [.slowTick, .abortPoint ⟨false, false⟩] })), by decide +kernel, next_witness (by decide +kernel)⟩

theorem witness_ReleasedStaysArmed_1 : ∃ (s : State) (t : State), (s.hp.released = true → s.hp.armed = true) ∧ step s = .next t ∧
    t.hp.released = true :=
  ⟨{ wArmed with pending := [.selftestPeriod] }, wNext wRun (step ({ wArmed with pending := [.selftestPeriod] })), by decide +kernel,
    next_witness (by decide +kernel), by decide +kernel⟩

theorem witness_FusesOnlyBlow_1 : ∃ (s : State) (t : State), step s = .next t :=
  ⟨{ wRun with pending := [.slowTick, .abortPoint ⟨false, false⟩] }, wNext wRun (step
    ({ wRun with pending := [.slowTick, .abortPoint ⟨false, false⟩] })), next_witness (by decide +kernel)⟩

theorem witness_PowerOnResetClearsAndLatches_5 : ∃ (pr : Probe) (s : State), s.clk.fioRun = true ∧ s.boot.por = false :=
  ⟨⟨true, false, true, true⟩, wRun, by decide +kernel⟩

theorem witness_PowerOnResetClearsAndLatches_6 : ∃ (lv : StrapLevels) (s : State), s.boot.por = true ∧ s.sel.chosen = true ∧ (lv.testEn
    && life s == .blank && s.pwr.pwrGood) = false :=
  ⟨⟨true, false, true, false⟩, wBoot (fun b => { b with por := true }), by decide +kernel⟩

theorem witness_PowerOnResetClearsAndLatches_7 : ∃ (lv : StrapLevels) (s : State), s.boot.por = true ∧ s.sel.chosen = true ∧ (lv.testEn
    && life s == .blank && s.pwr.pwrGood) = true :=
  ⟨⟨true, false, true, true⟩, wBoot (fun b => { b with por := true }), by decide +kernel⟩

theorem witness_PowerOnResetClearsAndLatches_8 : ∃ (s : State), s.boot.por = false :=
  ⟨wRun, by decide +kernel⟩

theorem witness_TheSelectorHandsOver_1 : ∃ (s : State), s.sel.chosen = true ∧ inOff s = false ∧ s.sel.aPres = true ∧ s.sel.bPres = true
    :=
  ⟨wSel (fun g => { g with bPres := true }), by decide +kernel⟩

theorem witness_TheSelectorHandsOver_2 : ∃ (s : State), s.sel.chosen = false ∧ s.sel.aPres = false ∧ s.sel.bPres = false :=
  ⟨wSel (fun g => { g with chosen := false, aPres := false, bPres := false }), by decide +kernel⟩

theorem witness_TheSelectorHandsOver_3 : ∃ (s : State) (k : Nat) (lost : Bool), s.sel.chosen = true ∧ s.sel.aPres = s.sel.sel.not ∧
    s.sel.bPres = s.sel.sel ∧ s.sel.win = some k ∧ s.sel.gap = none :=
  ⟨wSel (fun g => { g with win := some 0 }), 0, false, by decide +kernel⟩

theorem witness_TheSelectorHandsOver_4 : ∃ (s : State) (g : Stamp), s.sel.chosen = true ∧ inOff s = false ∧ s.sel.aPres = false ∧
    s.sel.bPres = false ∧ s.sel.win = none ∧ s.sel.gap = some g :=
  ⟨wSel (fun g => { g with aPres := false, gap := some ⟨7, 0⟩ }), ⟨7, 0⟩, by decide +kernel⟩

theorem witness_TheSelectorHandsOver_5 : ∃ (s : State) (g : Stamp) (lost : Bool), s.sel.chosen = true ∧ inOff s = false ∧ s.sel.aPres =
    false ∧ s.sel.bPres = false ∧ s.sel.win = none ∧ s.sel.gap = some g :=
  ⟨wSel (fun g => { g with aPres := false, gap := some ⟨7, 0⟩ }), ⟨7, 0⟩, true, by decide +kernel⟩

theorem witness_TheSelectorHandsOver_6 : ∃ (s : State), s.sel.chosen = true ∧ inOff s = false ∧ s.sel.sel = true ∧ s.sel.aPres = true ∧
    s.sel.aQual = false :=
  ⟨wSel (fun g => { g with sel := true, bPres := true }), by decide +kernel⟩

theorem witness_TheSelectorHandsOver_7 : ∃ (s : State), s.sel.chosen = true ∧ inOff s = false ∧ s.sel.sel = true ∧ s.sel.aPres = true ∧
    s.sel.aQual = false :=
  ⟨wSel (fun g => { g with sel := true, bPres := true }), by decide +kernel⟩

theorem witness_TheSelectorHandsOver_8 : ∃ (s : State) (k : Nat), s.sel.win = some k :=
  ⟨wSel (fun g => { g with win := some 7 }), 7, by decide +kernel⟩

theorem witness_TheSelectorHandsOver_9 : ∃ (n : BitVec 4) (s : State), WinReaches 0x40010104 s :=
  ⟨8, wRun, by decide +kernel⟩

theorem witness_PowerCommandsBeginTransitions_1 : ∃ (tgt : PState) (f : Fr) (qw : BitVec 4) (sed : Bool) (s : State), Reaches f 0x10
    (pwrCmdWord tgt qw sed) s ∧ s.pwr.seq = .stable ∧ tgt ≠ .run ∧ acceptable s.pwr.st tgt = true ∧ s.pwr.pmicFault = false ∧
    s.pwr.opStage = .none ∧ staticRefuser s tgt = none :=
  ⟨.watch, wFr 0x10 (pwrCmdWord .watch 0 true), 0, true, wRun, by decide +kernel⟩

theorem witness_PowerCommandsBeginTransitions_2 : ∃ (tgt : PState) (f : Fr) (qw : BitVec 4) (sed : Bool) (s : State) (code : Byte),
    Reaches f 0x10 (pwrCmdWord tgt qw sed) s ∧ s.pwr.seq = .stable ∧ s.pwr.pmicFault = false ∧ s.pwr.opStage = .none ∧ tgt ≠ .run ∧ (if
    acceptable s.pwr.st tgt then staticRefuser s tgt = some code else code = 0x01) :=
  ⟨.idle, wFr 0x10 (pwrCmdWord .idle 3 false), 3, false, wSeq .watch .watch .stable, 1, by decide +kernel⟩

theorem witness_PowerCommandsBeginTransitions_3 : ∃ (f : Fr) (qw : BitVec 4) (sed : Bool) (s : State), Reaches f 0x10 (pwrCmdWord .run
    qw sed) s ∧ s.pwr.seq = .stable ∧ inTransition s = false ∧ s.pwr.pmicFault = false ∧ (s.pwr.st = .idle ∨ s.pwr.st = .watch ∨
    s.pwr.st = .hibernate) :=
  ⟨wFr 0x10 (pwrCmdWord .run 0 false), 0, false, wSeq .watch .watch .stable, by decide +kernel⟩

theorem witness_EntriesStepAndReverse_1 : ∃ (rx : RxPart) (s : State) (qw : BitVec 4) (r : Option Nat), s.pwr.seq = .entry 1 qw .none r
    ∧ s.pwr.script = none ∧ (qw ≠ 0 ∨ notReady s s.pwr.tgt rx = none) :=
  ⟨⟨false, false⟩, wSeq .run .watch (.entry 1 0 .none none), 0, none, by decide +kernel⟩

theorem witness_EntriesStepAndReverse_2 : ∃ (rx : RxPart) (s : State) (qw : BitVec 4) (r : Option Nat), s.pwr.seq = .entry 2 qw .none r
    ∧ notReady (evConsume s) s.pwr.tgt rx = none ∧ windowQuiet s = true :=
  ⟨⟨false, false⟩, wSeq .run .watch (.entry 2 0 .none none), 0, none, rfl, by rw [evConsume_empty _ rfl]; decide +kernel,
    by decide +kernel⟩

theorem witness_EntriesStepAndReverse_3 : ∃ (rx : RxPart) (s : State) (qw : BitVec 4) (r : Option Nat), s.pwr.seq = .entry 3 qw .none r
    ∧ s.pwr.script = none ∧ PState.deep s.pwr.tgt = true :=
  ⟨⟨true, false⟩, wSeq .run .watch (.entry 3 0 .none none), 0, none, by decide +kernel⟩

theorem witness_EntriesStepAndReverse_4 : ∃ (rx : RxPart) (s : State) (qw : BitVec 4) (r : Option Nat), s.pwr.seq = .entry 4 qw .none r
    ∧ s.pwr.script = none ∧ PState.deep s.pwr.tgt = true :=
  ⟨⟨false, true⟩, wSeq .run .hibernate (.entry 4 0 .none none), 0, none, by decide +kernel⟩

theorem witness_EntriesStepAndReverse_5 : ∃ (rx : RxPart) (s : State) (qw : BitVec 4) (r : Option Nat), s.pwr.seq = .entry 5 qw .none r
    ∧ s.pwr.script = none :=
  ⟨⟨false, false⟩, wSeq .run .hibernate (.entry 5 0 .none none), 0, none, by decide +kernel⟩

theorem witness_EntriesStepAndReverse_6 : ∃ (rx : RxPart) (s : State) (qw : BitVec 4) (r : Option Nat), s.pwr.seq = .entry 6 qw .none r
    ∧ s.pwr.script = none ∧ s.pwr.woken = false ∧ s.pwr.deferred = none ∧ s.pwr.opTgt = s.pwr.opCur ∧ s.outstanding = [] ∧ s.engs.all
    (fun g => g.cur.isNone) = true :=
  ⟨⟨false, false⟩, wSeq .run .hibernate (.entry 6 0 .none none), 0, none, by decide +kernel⟩

theorem witness_EntriesStepAndReverse_7 : ∃ (rx : RxPart) (s : State) (step : Nat) (qw : BitVec 4) (r : Option Nat), s.pwr.seq = .entry
    step qw .wake r ∧ step = 1 ∨ step = 3 ∧ s.pwr.script = none :=
  ⟨⟨false, false⟩, wSeq .run .hibernate (.entry 3 0 .wake none), 3, 0, none, by decide +kernel⟩

theorem witness_EntriesStepAndReverse_8 : ∃ (rx : RxPart) (s : State) (qw : BitVec 4) (cut : Cut) (r : Option Nat) (code : Byte),
    s.pwr.seq = .entry 2 qw cut r ∧ notReady (evConsume s) s.pwr.tgt rx = some code :=
  ⟨⟨false, false⟩, updHp (wSeq .run .watch (.entry 2 0 .none none)) (fun h => { h with stRun := true }), 0, .none, none, 3, rfl,
    by rw [evConsume_empty _ rfl]; decide +kernel⟩

theorem witness_EntriesStepAndReverse_9 : ∃ (rx : RxPart) (s : State) (r : Option Nat) (code : Byte), s.pwr.seq = .entry 1 0 .none r ∧
    s.pwr.script = none ∧ notReady s s.pwr.tgt rx = some code :=
  ⟨⟨false, false⟩, updLdg (wSeq .run .watch (.entry 1 0 .none none)) (fun l => { l with used := 1 }), none, 4, by decide +kernel⟩

theorem witness_EntriesStepAndReverse_10 : ∃ (s : State) (ap : Nat) (first : Nat) (cut : Cut), s.pwr.seq = .reverse ap first cut none ∧
    s.pwr.script = none ∧ s.pwr.awaitPg = false ∧ (s.pwr.st = .run ∨ cut ≠ .wake ∧ s.pwr.woken = false) ∧ s.pwr.deferred = none ∧
    s.pwr.opTgt = s.pwr.opCur :=
  ⟨wSeq .run .watch (.reverse 3 1 (.refuse 5) none), 3, 1, .refuse 5, by decide +kernel⟩

theorem witness_EntriesStepAndReverse_11 : ∃ (s : State) (ap : Nat) (first : Nat), s.pwr.seq = .reverse ap first .wake none ∧
    s.pwr.script = none ∧ s.pwr.awaitPg = false ∧ s.pwr.st ≠ .run :=
  ⟨wSeq .idle .watch (.reverse 3 1 .wake none), 3, 1, by decide +kernel⟩

theorem witness_EntriesStepAndReverse_12 : ∃ (s : State) (ap : Nat) (first : Nat) (cut : Cut) (c : Nat), s.pwr.seq = .reverse ap first
    cut (some c) ∧ s.pwr.script = none ∧ s.pwr.awaitPg = false :=
  ⟨wSeq .watch .hibernate (.reverse 3 1 .none (some 4)), 3, 1, .none, 4, by decide +kernel⟩

theorem witness_ExitStepsToRun_1 : ∃ (x : Xt24Start) (s : State) (res : Nat), s.boot.mfg = false ∧ s.pwr.seq = .exit 0 none res ∧
    (s.pwr.st = .hibernate ∨ s.pwr.st = .watch) ∧ s.pwr.script = none ∧ s.pwr.awaitPg = false :=
  ⟨.good, wSeq .hibernate .run (.exit 0 none 1), 1, by decide +kernel⟩

theorem witness_ExitStepsToRun_2 : ∃ (x : Xt24Start) (s : State) (res : Nat), s.boot.mfg = false ∧ s.pwr.seq = .exit 0 none res ∧
    (s.pwr.st = .hibernate ∨ s.pwr.st = .watch) ∧ (s.pwr.script ≠ none ∨ s.pwr.awaitPg = true) :=
  ⟨.good, updPwr (wSeq .watch .run (.exit 0 none 1)) (fun p => { p with awaitPg := true }), 1, by decide +kernel⟩

theorem witness_ExitStepsToRun_3 : ∃ (x : Xt24Start) (s : State) (res : Nat), s.boot.mfg = false ∧ s.pwr.seq = .exit 1 none res ∧
    s.pwr.st = .hibernate :=
  ⟨.good, wSeq .hibernate .run (.exit 1 none 1), 1, by decide +kernel⟩

theorem witness_ExitStepsToRun_4 : ∃ (x : Xt24Start) (s : State) (res : Nat), s.boot.mfg = false ∧ s.pwr.seq = .exit 1 none res ∧
    s.pwr.st = .watch :=
  ⟨.good, wSeq .watch .run (.exit 1 none 1), 1, by decide +kernel⟩

theorem witness_ExitStepsToRun_5 : ∃ (x : Xt24Start) (s : State) (res : Nat), s.boot.mfg = false ∧ s.pwr.seq = .exit 2 none res ∧
    (s.pwr.st = .hibernate ∨ s.pwr.st = .watch) ∧ s.pwr.repeatX2 = false ∧ s.clk.xt24Run = true ∧ s.wiping.contains .sce = false ∧
    s.wiping.contains .sed = false ∧ s.wiping.contains .hpRules = false :=
  ⟨.good, wSeq .watch .run (.exit 2 none 1), 1, by decide +kernel⟩

theorem witness_ExitStepsToRun_6 : ∃ (x : Xt24Start) (s : State) (res : Nat), s.boot.mfg = false ∧ s.pwr.seq = .exit 3 none res ∧
    (s.pwr.st = .hibernate ∨ s.pwr.st = .watch) ∧ s.pwr.repeatX2 = false ∧ s.wiping ≠ [] :=
  ⟨.good, { wSeq .watch .run (.exit 3 none 1) with wiping := [.tsr] }, 1, by decide +kernel⟩

theorem witness_ExitStepsToRun_7 : ∃ (x : Xt24Start) (s : State) (res : Nat), s.boot.mfg = false ∧ s.pwr.seq = .exit 3 none res ∧
    (s.pwr.st = .hibernate ∨ s.pwr.st = .watch) ∧ s.pwr.repeatX2 = false ∧ s.wiping = [] ∧ retErr s 6 = false ∧ retErr s 8 = false :=
  ⟨.good, wSeq .watch .run (.exit 3 none 1), 1, by decide +kernel⟩

theorem witness_ExitStepsToRun_8 : ∃ (x : Xt24Start) (s : State) (res : Nat), s.boot.mfg = false ∧ s.boot.por = false ∧ s.pwr.seq =
    .exit 3 none res ∧ (s.pwr.st = .hibernate ∨ s.pwr.st = .watch) ∧ s.pwr.repeatX2 = false ∧ s.wiping = [] ∧ (retErr s 6 = true ∨
    retErr s 8 = true) :=
  ⟨.good, updPwr (wSeq .watch .run (.exit 3 none 1)) (fun p => { p with pd := upd p.pd 6 (fun _ => .ret), supEcc := true }), 1,
    by decide +kernel⟩

theorem witness_ExitStepsToRun_9 : ∃ (x : Xt24Start) (s : State) (res : Nat), s.boot.mfg = false ∧ s.pwr.seq = .exit 4 none res ∧
    s.pwr.st ≠ .idle ∧ s.pwr.repeatX2 = false ∧ s.pwr.deferred = none ∧ s.pwr.opTgt = s.pwr.opCur :=
  ⟨.good, wSeq .watch .run (.exit 4 none 1), 1, by decide +kernel⟩

theorem witness_ExitStepsToRun_10 : ∃ (x : Xt24Start) (s : State) (res : Nat), s.boot.mfg = false ∧ s.pwr.seq = .exit 0 none res ∧
    s.pwr.st = .idle ∧ s.clk.xt24Run = true ∧ s.wiping.contains .sce = false ∧ s.wiping.contains .sed = false ∧ s.wiping.contains
    .hpRules = false :=
  ⟨.good, wSeq .idle .run (.exit 0 none 1), 1, by decide +kernel⟩

theorem witness_ExitStepsToRun_11 : ∃ (x : Xt24Start) (s : State) (res : Nat), s.boot.mfg = false ∧ s.pwr.seq = .exit 3 none res ∧
    s.pwr.st = .idle ∧ s.pwr.repeatX2 = false ∧ s.pwr.deferred = none ∧ s.pwr.opTgt = s.pwr.opCur :=
  ⟨.good, wSeq .idle .run (.exit 3 none 1), 1, by decide +kernel⟩

theorem witness_ExitStepsToRun_12 : ∃ (x : Xt24Start) (s : State) (cp : Nat) (res : Nat), s.boot.mfg = false ∧ s.pwr.seq = .exit cp none
    res ∧ 2 ≤ cp ∧ s.pwr.repeatX2 = true :=
  ⟨.good, updPwr (wSeq .watch .run (.exit 3 none 1)) (fun p => { p with repeatX2 := true }), 3, 1, by decide +kernel⟩

theorem witness_PowerGoodAndScriptsAreWatched_1 : ∃ (s : State), s.boot.mfg = false ∧ s.pwr.awaitPg = true ∧ s.pwr.opCur = 0 :=
  ⟨wPwr (fun p => { p with awaitPg := true, pwrGood := false }), by decide +kernel⟩

theorem witness_PowerGoodAndScriptsAreWatched_2 : ∃ (s : State), s.boot.por = false ∧ s.pwr.awaitPg = true ∧ s.pwr.porUp = false ∧ inOff
    s = false ∧ s.flt.recs.length < 32 :=
  ⟨wPwr (fun p => { p with awaitPg := true, pwrGood := false }), by decide +kernel⟩

theorem witness_PowerGoodAndScriptsAreWatched_3 : ∃ (s : State), s.boot.por = false ∧ s.pwr.awaitPg = true ∧ s.pwr.porUp = true ∧
    s.outstanding = [] ∧ s.engs.all (fun g => g.cur.isNone) = true :=
  ⟨wPwr (fun p => { p with awaitPg := true, pwrGood := false, porUp := true }), by decide +kernel⟩

theorem witness_PowerGoodAndScriptsAreWatched_4 : ∃ (s : State), reliesPg s = true ∧ s.pwr.porUp = false ∧ inOff s = false ∧
    s.flt.recs.length < 32 :=
  ⟨wRun, by decide +kernel⟩

theorem witness_PowerGoodAndScriptsAreWatched_5 : ∃ (s : State) (sc : Script), s.pwr.script = some sc ∧ sc.idx + 1 ≠ 8 ∧ bits
    (scriptWord s sc.slot (sc.idx + 1)) 31 25 ≠ 0 :=
  ⟨wPwr (fun p =>
    { p with scripts := upd (upd p.scripts 8 (fun _ => 0x40000000)) 9 (fun _ => 0x40000000), script := some ⟨1, 0, false⟩ }), ⟨1, 0,
    false⟩, by decide +kernel⟩

theorem witness_PowerGoodAndScriptsAreWatched_6 : ∃ (s : State) (sc : Script) (qw : BitVec 4) (r : Option Nat), s.pwr.script = some sc ∧
    sc.retried = true ∧ (sc.slot = 0 ∨ sc.slot = 6) ∧ s.pwr.seq = .entry 5 qw .none r :=
  ⟨updPwr (wSeq .run .hibernate (.entry 5 0 .none none)) (fun p => { p with script := some ⟨6, 7, true⟩ }), ⟨6, 7, true⟩, 0, none,
    by decide +kernel⟩

theorem witness_PowerGoodAndScriptsAreWatched_7 : ∃ (s : State) (sc : Script), s.pwr.script = some sc ∧ sc.slot = 0 ∨ sc.slot = 6 ∧
    (sc.idx + 1 = 8 ∨ bits (scriptWord s sc.slot (sc.idx + 1)) 31 25 = 0) :=
  ⟨wPwr (fun p => { p with script := some ⟨6, 7, false⟩ }), ⟨6, 7, false⟩, by decide +kernel⟩

theorem witness_PowerGoodAndScriptsAreWatched_8 : ∃ (s : State) (sc : Script), s.pwr.script = some sc ∧ sc.retried = false :=
  ⟨wPwr (fun p =>
    { p with scripts := upd (upd p.scripts 8 (fun _ => 0x40000000)) 9 (fun _ => 0x40000000), script := some ⟨1, 0, false⟩ }), ⟨1, 0,
    false⟩, by decide +kernel⟩

theorem witness_OperatingPointsAndPadsChange_1 : ∃ (f : Fr) (op : BitVec 2) (s : State), Reaches f 0x12 (op.setWidth 32) s ∧
    (s.fuses.hgrade && op == 3) = false ∧ scriptEmpty s (2 + op.toNat) = false ∧ chargesFit s op.toNat = true ∧ s.pwr.seq = .stable ∧
    PState.deep s.pwr.st = false ∧ s.pwr.opStage = .none ∧ op.toNat ≠ s.pwr.opCur :=
  ⟨wFr 0x12 3, 3, wPwr (fun p => { p with scripts := upd p.scripts 40 (fun _ => 0x40000000) }), by decide +kernel⟩

theorem witness_OperatingPointsAndPadsChange_2 : ∃ (f : Fr) (op : BitVec 2) (s : State), Reaches f 0x12 (op.setWidth 32) s ∧ s.pwr.seq ≠
    .stable ∧ ((s.fuses.hgrade && op == 3) = true ∨ scriptEmpty s (2 + op.toNat) = true) :=
  ⟨wFr 0x12 3, 3, wSeq .hibernate .run (.exit 2 none 1), by decide +kernel⟩

theorem witness_OperatingPointsAndPadsChange_3 : ∃ (f : Fr) (op : BitVec 2) (s : State), Reaches f 0x12 (op.setWidth 32) s ∧ s.pwr.seq =
    .stable ∧ ((s.fuses.hgrade && op == 3) = true ∨ scriptEmpty s (2 + op.toNat) = true) :=
  ⟨wFr 0x12 3, 3, wRun, by decide +kernel⟩

theorem witness_OperatingPointsAndPadsChange_4 : ∃ (s : State), (s.clk.relock0 = true ∨ s.clk.relock1 = true) ∧ s.pwr.opStage = .relock
    ∧ s.pwr.opCur ≤ s.pwr.opGoal ∧ s.pwr.seq = .stable ∧ s.pwr.deferred = none ∧ s.pwr.opTgt = s.pwr.opGoal :=
  ⟨updClk (wPwr (fun p => { p with opStage := .relock, opGoal := 3, opTgt := 3 })) (fun c => { c with relock1 := true }),
    by decide +kernel⟩

theorem witness_OperatingPointsAndPadsChange_5 : ∃ (f : Fr) (mask : BitVec 8) (s : State), Reaches f 0x18 (mask.setWidth 32) s :=
  ⟨wFr 0x18 0xFF, 0xFF, wPwr (fun p => { p with pads := 0xFF }), by decide +kernel⟩

theorem witness_SlowTickAdvancesTime_1 : ∃ (s : State), aonRuns s = true ∧ s.tim.slew = none ∧ s.clk.slowLrc = false ∧ i59On s = true :=
  ⟨wRun, by decide +kernel⟩

theorem witness_SlowTickAdvancesTime_2 : ∃ (s : State) (k : Nat), aonRuns s = true ∧ s.tim.slew = none ∧ s.clk.slowLrc = true ∧
    s.clk.meas = some k ∧ s.clk.xt24Run = true ∧ i59On s = false :=
  ⟨updClk wNoI59 (fun c => { c with slowLrc := true, meas := some 2147483 }), 2147483, by decide +kernel⟩

theorem witness_SlowTickAdvancesTime_3 : ∃ (s : State), aonRuns s = true ∧ s.tim.slew = none ∧ s.clk.slowLrc = true ∧ s.clk.meas = none
    ∧ i59On s = true :=
  ⟨wClk (fun c => { c with slowLrc := true }), by decide +kernel⟩

theorem witness_SlowTickAdvancesTime_4 : ∃ (s : State) (sl : Slew), aonRuns s = true ∧ s.tim.slew = some sl ∧ s.clk.slowLrc = false ∧
    i59On s = true ∧ sl.true_ + 32 < ((s.tim.dt + 16 : Nat) : Int) :=
  ⟨wTim (fun m => { m with dt := 1000, slew := some ⟨970, ⟨0, 0⟩⟩ }), ⟨970, ⟨0, 0⟩⟩, by decide +kernel⟩

theorem witness_ClocksFailAndReturn_1 : ∃ (freq : Bool) (n : Nat) (s : State), aonRuns s = true ∧ s.clk.slowLrc = false ∧
    s.flt.recs.length < 32 :=
  ⟨true, 3, wRun, by decide +kernel⟩

theorem witness_ClocksFailAndReturn_2 : ∃ (freq : Bool) (s : State), aonRuns s = true ∧ s.clk.xt24Run = true ∧ s.flt.recs.length < 32 :=
  ⟨true, wRun, by decide +kernel⟩

theorem witness_ClocksFailAndReturn_3 : ∃ (freq : Bool) (s : State), aonRuns s = true ∧ pdOn s 1 = true ∧ s.clk.hrcFail = false ∧
    s.flt.recs.length < 32 :=
  ⟨false, wRun, by decide +kernel⟩

theorem witness_ClocksFailAndReturn_4 : ∃ (s : State), aonRuns s = true ∧ s.clk.slowLrc = true ∧ s.tim.slew = none ∧ i59On s = true :=
  ⟨wClk (fun c => { c with slowLrc := true, meas := some 2147483 }), by decide +kernel⟩

theorem witness_ClocksFailAndReturn_5 : ∃ (c : Nat) (s : State), aonRuns s = true ∧ s.clk.slowLrc = true ∧ s.clk.xt24Run = true :=
  ⟨93750, wClk (fun c => { c with slowLrc := true }), by decide +kernel⟩

theorem witness_ClocksFailAndReturn_6 : ∃ (pll1 : Bool) (w : Bool) (s : State), aonRuns s = true ∧ pllsRun s = true ∧ (w && (if pll1
    then s.clk.lost1 else s.clk.lost0)) = false :=
  ⟨true, true, wRun, by decide +kernel⟩

theorem witness_ClocksFailAndReturn_7 : ∃ (pll1 : Bool) (s : State), aonRuns s = true ∧ pllsRun s = true ∧ (if pll1 then s.clk.lost1
    else s.clk.lost0) = true :=
  ⟨true, wClk (fun c => { c with lost1 := true }), by decide +kernel⟩

theorem witness_ClocksFailAndReturn_8 : ∃ (s : State), fioWork s = false :=
  ⟨updPwr (wClk (fun c => { c with pllFio := false })) (fun p => { p with st := .watch, pd := upd p.pd 5 (fun _ => .off) }),
    by decide +kernel⟩

theorem witness_WarmResetsHoldAndEndInRun_1 : ∃ (v : BitVec 32) (s : State), WinReaches 0x400101A4 s ∧ bits v 31 16 = 0x7A3C ∧ bit v 0 =
    true ∧ s.isl.length = 64 ∧ s.memOk ∧ s.engs.all (fun g => g.cur.all (fun l => l.wbuf.isEmpty)) = true :=
  ⟨0x7A3C0001, wRun, by decide +kernel⟩

theorem witness_WarmResetsHoldAndEndInRun_2 : ∃ (s : State), s.pwr.seq = .warm 4 ∧ s.pwr.warmPmic = false ∧ s.pwr.deferred = none ∧
    s.pwr.opTgt = s.pwr.opCur ∧ s.lc.op = .none :=
  ⟨wSeq .run .run (.warm 4), by decide +kernel⟩

theorem witness_IslandsAreResetAndCrossed_1 : ∃ (v : Word) (s : State), WinReaches 0x400101A8 s ∧ bits v 31 16 = 0x1A5D ∧ islRefused s
    (bits v 5 0) = true :=
  ⟨0x1A5D0000, wRun, by decide +kernel⟩

theorem witness_IslandsAreResetAndCrossed_2 : ∃ (v : Word) (s : State), WinReaches 0x400101A8 s ∧ bits v 31 16 = 0x1A5D ∧ islRefused s
    (bits v 5 0) = false ∧ s.isl.length = 64 :=
  ⟨0x1A5D001B, wRun, by decide +kernel⟩

theorem witness_IslandsAreResetAndCrossed_3 : ∃ (s : State) (i : Nat) (rest : List Nat), s.clk.islBusy = i :: rest ∧ i < 64 ∧
    s.isl.length = 64 ∧ (pll0Fed i && s.clk.relock0) = false :=
  ⟨updClk (wIsl 63 (fun i => { i with held := true })) (fun c => { c with islBusy := [63] }), 63, [], by decide +kernel⟩

theorem witness_IslandsAreResetAndCrossed_4 : ∃ (s : State), pdOn s 5 = true ∧ islRuns s 21 = true ∧ s.boot.por = false ∧ inWarm s =
    false ∧ s.isl.length = 64 ∧ s.flt.recs.length < 32 ∧ s.outstanding = [] ∧ s.engs.all (fun g => g.cur.isNone) = true ∧ s.cap.inst =
    none :=
  ⟨wRun, by decide +kernel⟩

theorem witness_IslandsAreResetAndCrossed_5 : ∃ (tag : BitVec 24) (reply : Bool) (entry : Option Nat) (s : State), pdLevel s (islPd
    (tagDst tag)) ≠ .off ∧ islAbsent s (tagDst tag) = false ∧ tagFresh s tag = false :=
  ⟨0x601B05, true, none, wIsl 27 (fun i => { i with epoch := 1 }), by decide +kernel⟩

theorem witness_IslandsAreResetAndCrossed_6 : ∃ (tag : BitVec 24) (entry : Option Nat) (s : State), pdLevel s (islPd (tagDst tag)) ≠
    .off ∧ islAbsent s (tagDst tag) = false ∧ tagFresh s tag = true ∧ (islSt s (tagDst tag)).held = false :=
  ⟨0x601B05, some 3, wRun, by decide +kernel⟩

theorem witness_IslandsAreResetAndCrossed_7 : ∃ (tag : BitVec 24) (entry : Option Nat) (s : State), pdLevel s (islPd (tagDst tag)) ≠
    .off ∧ islAbsent s (tagDst tag) = false ∧ tagFresh s tag = true ∧ (islSt s (tagDst tag)).held = false :=
  ⟨0x601B05, some 3, wRun, by decide +kernel⟩

theorem witness_IslandsAreResetAndCrossed_8 : ∃ (tag : BitVec 24) (reply : Bool) (entry : Option Nat) (s : State), pdLevel s (islPd
    (tagDst tag)) ≠ .off ∧ islAbsent s (tagDst tag) = false ∧ tagFresh s tag = true ∧ (islSt s (tagDst tag)).held = true :=
  ⟨0x601B05, true, none, wIsl 27 (fun i => { i with held := true }), by decide +kernel⟩

theorem witness_TimeIsSetSlewedAndRead_1 : ∃ (f : Fr) (s : State), Reaches f 0x77 0x7153 s ∧ dtNow (instant (askFio s)) ≤ setTime s ∧
    offNow (instant (askFio s)) ≤ setTime s :=
  ⟨wFr 0x77 0x7153, updTim wNoSed (fun m => { m with setLo := 500 }), by decide +kernel⟩

theorem witness_TimeIsSetSlewedAndRead_2 : ∃ (f : Fr) (s : State), Reaches f 0x77 0x7153 s ∧ setTime s < dtNow (instant (askFio s)) :=
  ⟨wFr 0x77 0x7153, updTim wNoI59 (fun m => { m with dt := 1000000, setLo := 500 }), by decide +kernel⟩

theorem witness_TimeIsSetSlewedAndRead_3 : ∃ (f : Fr) (key : BitVec 16) (s : State), Reaches f 0x77 (key.setWidth 32) s ∧ key ≠ 0x7153
    :=
  ⟨wFr 0x77 0, 0, wRun, by decide +kernel⟩

theorem witness_TimeIsSetSlewedAndRead_4 : ∃ (s : State) (sl : Slew), aonRuns s = true ∧ s.tim.slew = some sl ∧ ((s.tim.dt + ((tickNow
    s).half s.tim.frac).1 : Nat) : Int) ≤ sl.true_ + ((tickNow s).full sl.frac).1 :=
  ⟨wTim (fun m => { m with dt := 1000, slew := some ⟨990, ⟨0, 0⟩⟩ }), ⟨990, ⟨0, 0⟩⟩, by decide +kernel⟩

theorem witness_TimeIsSetSlewedAndRead_5 : ∃ (s : State), aonRuns s = true ∧ s.tim.alarmEn = true ∧ alarmTime s ≤ dtNow (instant s) ∧
    s.pwr.seq = .stable ∧ s.pwr.st = .run ∧ inTransition s = false :=
  ⟨updTim wNoI59 (fun m => { m with alarmEn := true }), by decide +kernel⟩

theorem witness_TimeIsSetSlewedAndRead_6 : ∃ (s : State), aonRuns s = true ∧ s.tim.alarmEn = true ∧ alarmTime s ≤ dtNow (instant s) ∧
    s.pwr.seq = .stable ∧ s.pwr.st ≠ .run ∧ inTransition s = false :=
  ⟨updTim (updPwr wNoI59 (fun p => { p with st := .idle, tgt := .idle })) (fun m => { m with alarmEn := true }), by decide +kernel⟩

theorem witness_TimeIsSetSlewedAndRead_7 : ∃ (f : Fr) (v : Word) (s : State), Reaches f 0x79 v s :=
  ⟨wFr 0x79 5, 5, wRun, by decide +kernel⟩

theorem witness_TimeIsSetSlewedAndRead_8 : ∃ (r : Rd) (s : State), cpServes s = true ∧ addressed s r.addr = true ∧ (r.early = false ∨
    s.boot.strapCp = true) ∧ r.pre = [] :=
  ⟨wRd, wRun, by decide +kernel⟩

theorem witness_TimeIsSetSlewedAndRead_9 : ∃ (r : Rd) (s : State), cpServes s = true ∧ addressed s r.addr = true ∧ r.early = true ∧
    s.boot.strapCp = false ∧ r.pre = [] :=
  ⟨{ wRd with early := true }, wRun, by decide +kernel⟩

theorem witness_TimeIsSetSlewedAndRead_10 : ∃ (r : Rd) (p : BitVec 4 × Byte) (ps : List (BitVec 4 × Byte)) (s : State), r.pre = p :: ps
    :=
  ⟨{ wRd with pre := [(1, 0x06)] }, (1, 0x06), [], wRun, by decide +kernel⟩

theorem witness_FramesAreCountedAndReported_1 : ∃ (cmd : Byte) (s : State), Instr.wf (.cpInvalidCommand cmd) = true ∧ cpServes s = true
    :=
  ⟨0xA7, wRun, by decide +kernel⟩

theorem witness_FramesAreCountedAndReported_2 : ∃ (c : Instr) (s : State), (c = .cpTruncatedFrame ∨ c = .cpFrameTimeout) ∧ cpServes s =
    true :=
  ⟨.cpFrameTimeout, wRun, by decide +kernel⟩

theorem witness_FramesAreCountedAndReported_3 : ∃ (f : Fr) (idx : Byte) (v : Word) (s : State), frGood f idx v = false ∧ cpServes s =
    true ∧ addressed s f.addr = true :=
  ⟨⟨3, 0xFF ^^^ writeCrc 3 0x06 9, 0⟩, 0x06, 9, wRun, by decide +kernel⟩

theorem witness_FramesAreCountedAndReported_4 : ∃ (r : Rd) (s : State), cpServes s = true ∧ addressed s r.addr = true ∧ r.pre = [] :=
  ⟨wRd, wRun, by decide +kernel⟩

theorem witness_FramesAreCountedAndReported_5 : ∃ (f : Fr) (idx : Byte) (v : Word) (s : State), Reaches f idx v s :=
  ⟨wFr 0x06 9, 0x06, 9, wRun, by decide +kernel⟩

theorem witness_FramesAreCountedAndReported_6 : ∃ (f : Fr) (idx : Byte) (v : Word) (s : State) (st : Nat), cpServes s = true ∧ addressed
    s f.addr = true ∧ frGood f idx v = true ∧ writeBar s idx.toNat = some st :=
  ⟨(wFr 0x07 9), 0x07, 9, wRun, 1, by decide +kernel⟩

theorem witness_FramesAreCountedAndReported_7 : ∃ (f : Fr) (v : Word) (s : State), Reaches f 0x06 v s :=
  ⟨wFr 0x06 9, 9, wRun, by decide +kernel⟩

theorem witness_FramesAreCountedAndReported_8 : ∃ (f : Fr) (v : Word) (s : State), Reaches f 0xF0 v s :=
  ⟨wFr 0xF0 9, 9, wRun, by decide +kernel⟩

theorem witness_FramesAreCountedAndReported_9 : ∃ (f : Fr) (v : Word) (s : State), Reaches f 0x20 v s :=
  ⟨wFr 0x20 0x1FFF, 0x1FFF, wRun, by decide +kernel⟩

theorem witness_FramesAreCountedAndReported_10 : ∃ (f : Fr) (v : Word) (s : State), Reaches f 0x21 v s :=
  ⟨wFr 0x21 9, 9, wRun, by decide +kernel⟩

theorem witness_FramesAreCountedAndReported_11 : ∃ (f : Fr) (v : Word) (s : State), Reaches f 0x22 v s :=
  ⟨wFr 0x22 0x1FFF, 0x1FFF, wRun, by decide +kernel⟩

theorem witness_TheWindowPrefetches_1 : ∃ (f : Fr) (v : Word) (s : State), Reaches f 0x30 v s :=
  ⟨wFr 0x30 0x10000003, 0x10000003, wRun, by decide +kernel⟩

theorem witness_TheWindowPrefetches_2 : ∃ (r : Rd) (s : State), cpServes s = true ∧ addressed s r.addr = true ∧ (r.early = false ∨
    s.boot.strapCp = true) ∧ r.pre = [] ∧ s.win.pbusy = true :=
  ⟨wRd, wWin (fun x => { x with pbusy := true }), by decide +kernel⟩

theorem witness_TheWindowPrefetches_3 : ∃ (r : Rd) (s : State), cpServes s = true ∧ addressed s r.addr = true ∧ (r.early = false ∨
    s.boot.strapCp = true) ∧ r.pre = [] ∧ s.win.pbusy = false ∧ inTransition s = false :=
  ⟨wRd, wRun, by decide +kernel⟩

theorem witness_TheWindowPrefetches_4 : ∃ (s : State), s.win.pbusy = true ∧ s.win.posted = [] ∧ s.win.ppeer = false ∧ winWaits s
    s.win.addr.toNat false s.win.plate = false :=
  ⟨wWin (fun x => { x with pbusy := true, addr := 0x10000000 }), by decide +kernel⟩

theorem witness_TheWindowPrefetches_5 : ∃ (s : State), s.win.pbusy = true ∧ s.win.posted = [] ∧ s.win.ppeer = true :=
  ⟨wWin (fun x => { x with pbusy := true, addr := 0x10000000, ppeer := true }), by decide +kernel⟩

theorem witness_TheWindowPrefetches_6 : ∃ (s : State), s.win.ppeer = false ∧ winWaits s s.win.addr.toNat false s.win.plate = true :=
  ⟨updWin (wIsl 35 (fun i => { i with held := true })) (fun x => { x with pbusy := true, addr := 0x10000000 }), by decide +kernel⟩

theorem witness_WindowWritesArePosted_1 : ∃ (f : Fr) (v : Word) (s : State), Reaches f 0x31 v s ∧ s.win.posted.length < 2 :=
  ⟨wFr 0x31 5, 5, wWin (fun x => { x with posted := [⟨0x10000000, 1, 0, false, false⟩] }), by decide +kernel⟩

theorem witness_WindowWritesArePosted_2 : ∃ (f : Fr) (v : Word) (s : State), Reaches f 0x31 v s ∧ 2 ≤ s.win.posted.length :=
  ⟨wFr 0x31 5, 5, wWin (fun x => { x with posted := [⟨0x10000000, 1, 0, false, false⟩, ⟨0x10000004, 2, 1, false, false⟩] }),
    by decide +kernel⟩

theorem witness_WindowWritesArePosted_3 : ∃ (s : State) (p : PWrite) (rest : List PWrite), s.win.posted = p :: rest ∧ p.peerReset =
    false ∧ s.memOk ∧ winWaits s p.addr.toNat true p.late = false ∧ winStatus s p.addr.toNat true p.late = stOk ∧ i57Held s = false ∧
    (0x10000000 ≤ p.addr.toNat ∧ p.addr.toNat < 0x40000000 ∨ isClay p.addr.toNat = true ∧ isClay (p.addr.toNat + 3) = true) :=
  ⟨wWin (fun x => { x with posted := [⟨0x10000000, 1, 0, false, false⟩, ⟨0x10000004, 2, 1, false, false⟩] }), ⟨0x10000000, 1, 0, false,
    false⟩, [⟨0x10000004, 2, 1, false, false⟩], by decide +kernel⟩

theorem witness_WindowWritesArePosted_4 : ∃ (s : State) (p : PWrite) (rest : List PWrite) (st : Nat), s.win.posted = p :: rest ∧
    p.peerReset = false ∧ winWaits s p.addr.toNat true p.late = false ∧ winStatus s p.addr.toNat true p.late = st ∧ st ≠ stOk ∧ i57Held
    s = false :=
  ⟨wWin (fun x => { x with posted := [⟨0, 1, 0, false, false⟩] }), ⟨0, 1, 0, false, false⟩, [], stAddr, by decide +kernel⟩

theorem witness_DoorbellsEnqueueDescriptors_1 : ∃ (f : Fr) (v : Word) (s : State), Reaches f 0x40 v s ∧ dbOpen s = true ∧ s.db.fifo = []
    ∧ s.pwr.seq = .stable ∧ (qd s (bits v 13 0)).cls = clsCmd ∧ (qd s (bits v 13 0)).diff (qd s (bits v 13 0)).wp (qd s (bits v 13
    0)).rp + bits v 31 16 ≤ (qd s (bits v 13 0)).depth :=
  ⟨wFr 0x40 0x00100001, 0x00100001, wQm (fun m =>
    { m with qdt := [(1, { QDesc.unused with cls := clsCmd, isize := 2, ldepth := 3 })] }), by decide +kernel⟩

theorem witness_DoorbellsEnqueueDescriptors_2 : ∃ (f : Fr) (v : Word) (s : State), Reaches f 0x40 v s ∧ dbOpen s = false ∧ s.pwr.seq =
    .stable ∧ s.pwr.st = .run ∧ s.db.fifo.length < 16 :=
  ⟨wFr 0x40 0x00100001, 0x00100001, wPwr (fun p => { p with supRdy := false }), by decide +kernel⟩

theorem witness_DoorbellsEnqueueDescriptors_3 : ∃ (f : Fr) (v : Word) (s : State), Reaches f 0x40 v s ∧ dbOpen s = false ∧ s.pwr.seq =
    .stable ∧ s.pwr.st = .run ∧ 16 ≤ s.db.fifo.length :=
  ⟨wFr 0x40 0x00100001, 0x00100001, { wPwr (fun p => { p with supRdy := false }) with db := ⟨many 16 (1, 1), 0, 0, 0⟩ },
    by decide +kernel⟩

theorem witness_DoorbellsEnqueueDescriptors_4 : ∃ (s : State) (q : BitVec 14) (n : Nat) (rest : List (BitVec 14 × Nat)), s.db.fifo = (q,
    n) :: rest ∧ dbOpen s = true ∧ (qd s q.toNat).cls = clsCmd ∧ (qd s q.toNat).diff (qd s q.toNat).wp (qd s q.toNat).rp + n ≤ (qd s
    q.toNat).depth :=
  ⟨{ wQm (fun m => { m with qdt := [(1, { QDesc.unused with cls := clsCmd, isize := 2, ldepth := 3 })] }) with db := ⟨[(1, 16)], 0, 0, 0⟩ },
    1, 16, [], by decide +kernel⟩

theorem witness_DoorbellsEnqueueDescriptors_5 : ∃ (f : Fr) (v : Word) (s : State), Reaches f 0x40 v s ∧ s.pwr.seq = .stable ∧ (s.pwr.st
    = .watch ∨ s.pwr.st = .hibernate) ∧ inTransition s = false :=
  ⟨wFr 0x40 0x00100001, 0x00100001, wSeq .watch .watch .stable, by decide +kernel⟩

theorem witness_PortControlDrivesTheLink_1 : ∃ (f : Fr) (p : Port) (v : Word) (s : State), Reaches f (BitVec.ofNat 8 (slpIdx p)) v s ∧
    bit v 0 = true ∧ (slipSt s p).en = false ∧ (slipSt s p).state = .disabled :=
  ⟨wFr (BitVec.ofNat 8 (slpIdx .slp0)) 1, .slp0, 1, wRun, by decide +kernel⟩

theorem witness_PortControlDrivesTheLink_2 : ∃ (f : Fr) (p : Port) (v : Word) (s : State), Reaches f (BitVec.ofNat 8 (slpIdx p)) v s ∧
    bit v 0 = false ∧ (slipSt s p).en = true ∧ (slipSt s p).state ≠ .disabled :=
  ⟨wFr (BitVec.ofNat 8 (slpIdx .slp0)) 0, .slp0, 0, wSlip (fun x => { x with ctrl := 1, state := .up }), by decide +kernel⟩

theorem witness_PortControlDrivesTheLink_3 : ∃ (f : Fr) (p : Port) (v : Word) (s : State), Reaches f (BitVec.ofNat 8 (slpIdx p)) v s ∧
    bit v 0 = true ∧ bit v 4 = true ∧ (slipSt s p).en = true ∧ (slipSt s p).state = .up :=
  ⟨wFr (BitVec.ofNat 8 (slpIdx .slp0)) 0x11, .slp0, 0x11, wSlip (fun x => { x with ctrl := 1, state := .up }), by decide +kernel⟩

theorem witness_TrainingLeadsToCredit_1 : ∃ (p : Port) (s : State), portRuns s p = true ∧ (slipSt s p).state = .clock :=
  ⟨.slp0, wSlip (fun x => { x with ctrl := 1, state := .clock }), by decide +kernel⟩

theorem witness_TrainingLeadsToCredit_2 : ∃ (p : Port) (s : State), portRuns s p = true ∧ (slipSt s p).state = .align :=
  ⟨.slp0, wSlip (fun x => { x with ctrl := 1, state := .align }), by decide +kernel⟩

theorem witness_TrainingLeadsToCredit_3 : ∃ (p : Port) (s : State), portRuns s p = true ∧ ((slipSt s p).state = .clock ∨ (slipSt s
    p).state = .align) :=
  ⟨.slp0, wSlip (fun x => { x with ctrl := 1, state := .align }), by decide +kernel⟩

theorem witness_TrainingLeadsToCredit_4 : ∃ (p : Port) (s : State), portRuns s p = true ∧ ((slipSt s p).state = .config ∨ (slipSt s
    p).state = .credit) :=
  ⟨.slp0, wSlip (fun x => { x with ctrl := 1, state := .credit }), by decide +kernel⟩

theorem witness_TrainingLeadsToCredit_5 : ∃ (p : Port) (s : State) (step : Nat) (qw : BitVec 4) (r : Option Nat), s.pwr.seq = .entry
    step qw .none r ∧ step ≠ 2 ∧ step < 6 ∧ portPresent s p = true ∧ (slipSt s p).en = true ∧ pdPowered s (portPd p) = true ∧ portPads s
    p = false ∧ s.pwr.wakeEn.getLsbD 5 = true :=
  ⟨.slp0, updPwr (wSlip (fun x => { x with ctrl := 1 })) (fun p =>
    { p with tgt := .idle, seq := .entry 3 0 .none none, wakeEn := 0x20 }), 3, 0, none, by decide +kernel⟩

theorem witness_TrainingLeadsToCredit_6 : ∃ (p : Port) (s : State), s.pwr.st = .idle ∧ s.pwr.seq = .stable ∧ inTransition s = false ∧
    portPresent s p = true ∧ (slipSt s p).en = true ∧ pdPowered s (portPd p) = true ∧ portPads s p = false ∧ s.pwr.wakeEn.getLsbD 5 =
    true :=
  ⟨.slp0, updPwr (wSlip (fun x => { x with ctrl := 1 })) (fun p =>
    { p with st := .idle, tgt := .idle, wakeEn := 0x20, pd := upd p.pd 18 (fun _ => .gated) }), by decide +kernel⟩

theorem witness_TrainingLeadsToCredit_7 : ∃ (p : Port) (ts : TsSet) (s : State), portRuns s p = true ∧ (slipSt s p).state = .config ∧
    tsGood (slipSt s p) ts = true ∧ ts.fresh = false ∧ (slipSt s p).tsAckedRx < 15 :=
  ⟨.slp0, wTs, wSlip (fun x => { x with ctrl := 1, state := .config }), by decide +kernel⟩

theorem witness_TrainingLeadsToCredit_8 : ∃ (p : Port) (ts : TsSet) (s : State), portRuns s p = true ∧ (slipSt s p).state = .config ∧
    tsGood (slipSt s p) ts = true ∧ ts.fresh = false ∧ ts.acked = true ∧ (slipSt s p).tsAckedRx = 15 ∧ 15 ≤ (slipSt s p).tsAckedTx ∧
    (slipSt s p).tsAckedTx ≤ 16 ∧ (slipSt s p).acked = true :=
  ⟨.slp0, wTs, wSlip (fun x => { x with ctrl := 1, state := .config, tsAckedRx := 15, tsAckedTx := 15, acked := true, tsRun := 16 }),
    by decide +kernel⟩

theorem witness_TrainingLeadsToCredit_9 : ∃ (p : Port) (ts : TsSet) (s : State), portRuns s p = true ∧ (slipSt s p).state = .config ∧
    tsGood (slipSt s p) ts = false :=
  ⟨.slp0, { wTs with version := 2 }, wSlip (fun x => { x with ctrl := 1, state := .config }), by decide +kernel⟩

theorem witness_TrainingLeadsToCredit_10 : ∃ (p : Port) (ts : TsSet) (s : State), portRuns s p = true ∧ (slipSt s p).state = .up ∧
    ts.good = true ∧ ts.lanesOk = true ∧ ts.skewed = false ∧ ts.fresh = false :=
  ⟨.slp0, { wTs with version := 2 }, wUp id, by decide +kernel⟩

theorem witness_CreditsAndAcknowledgementsCount_1 : ∃ (p : Port) (vc : BitVec 2) (cum : BitVec 14) (s : State), portRuns s p = true ∧
    (slipSt s p).state = .up :=
  ⟨.slp0, 2, 0x3FFF, wUp id, by decide +kernel⟩

theorem witness_CreditsAndAcknowledgementsCount_2 : ∃ (p : Port) (vc : BitVec 2) (cum : BitVec 14) (s : State), portRuns s p = true ∧
    (slipSt s p).state = .credit ∧ (slipSt s p).replay = [] ∧ (upd (slipSt s p).gotCredit vc.toNat (fun _ => true)).all (fun b => b) =
    true :=
  ⟨.slp0, 3, 5, wSlip (fun x => { x with ctrl := 1, state := .credit, gotCredit := [true, true, true, false] }), by decide +kernel⟩

theorem witness_CreditsAndAcknowledgementsCount_3 : ∃ (p : Port) (s : State), portRuns s p = true ∧ (slipSt s p).state = .up ∧
    portFrozen s = false :=
  ⟨.slp0, wUp id, by decide +kernel⟩

theorem witness_CreditsAndAcknowledgementsCount_4 : ∃ (p : Port) (n : BitVec 16) (s : State) (i : Nat), portRuns s p = true ∧ (slipSt s
    p).state = .up ∧ findSeq (slipSt s p) n = some i :=
  ⟨.slp0, 4, wUp (fun x => { x with replay := [wSent 3, wSent 4, wSent 5], txSeq := 6, resend := 2 }), 1, by decide +kernel⟩

theorem witness_CreditsAndAcknowledgementsCount_5 : ∃ (p : Port) (n : BitVec 16) (s : State) (i : Nat), portRuns s p = true ∧ (slipSt s
    p).state = .up ∧ findSeq (slipSt s p) n = some i ∧ (0 < i ∨ (slipSt s p).fruitless < 4) :=
  ⟨.slp0, 4, wUp (fun x => { x with replay := [wSent 3, wSent 4, wSent 5], txSeq := 6, resend := 2 }), 1, by decide +kernel⟩

theorem witness_CreditsAndAcknowledgementsCount_6 : ∃ (p : Port) (n : BitVec 16) (s : State), portRuns s p = true ∧ (slipSt s p).state =
    .up ∧ findSeq (slipSt s p) n = none :=
  ⟨.slp0, 9, wUp (fun x => { x with replay := [wSent 3, wSent 4, wSent 5], txSeq := 6 }), by decide +kernel⟩

theorem witness_CreditsAndAcknowledgementsCount_7 : ∃ (p : Port) (s : State), portRuns s p = true ∧ (slipSt s p).state = .up ∧ (slipSt s
    p).resend < (slipSt s p).replay.length ∧ (slipSt s p).fruitless < 4 :=
  ⟨.slp0, wUp (fun x => { x with replay := [wSent 3], fruitless := 3 }), by decide +kernel⟩

theorem witness_CreditsAndAcknowledgementsCount_8 : ∃ (p : Port) (s : State), portRuns s p = true ∧ (slipSt s p).state = .up ∧ (slipSt s
    p).resend < (slipSt s p).replay.length ∧ 4 ≤ (slipSt s p).fruitless :=
  ⟨.slp0, wUp (fun x => { x with replay := [wSent 3], fruitless := 4 }), by decide +kernel⟩

theorem witness_ItemFramesFillTheirQueue_1 : ∃ (p : Port) (fr : SlipFrame) (s : State), Instr.wf (.itemFrameReceive p fr) = true ∧
    receives s p = true ∧ fr.seq = (slipSt s p).nextRx ∧ frameCost fr ≤ 192 - nth (slipSt s p).used 1 0 ∧ ingressOk s p fr = true ∧
    (slipSt s p).rxBuf = [] ∧ ingressFits s p fr = true ∧ RingInTsr (qd s fr.qid.toNat) ∧ s.memOk :=
  ⟨.slp0, wFrame 1 1 1 32, wIn id, by decide +kernel⟩

theorem witness_ItemFramesFillTheirQueue_2 : ∃ (p : Port) (fr : SlipFrame) (s : State), Instr.wf (.itemFrameReceive p fr) = true ∧
    receives s p = true ∧ fr.seq = (slipSt s p).nextRx ∧ fr.vc = 1 ∧ frameCost fr ≤ 192 - nth (slipSt s p).used 1 0 ∧ (slipSt s p).rxBuf
    ≠ [] :=
  ⟨.slp0, wFrame 1 1 1 32, wIn (fun x => { x with rxBuf := [wFrame 1 1 1 16], used := [0, 2] }), by decide +kernel⟩

theorem witness_ItemFramesFillTheirQueue_3 : ∃ (p : Port) (fr : SlipFrame) (rest : List SlipFrame) (s : State), (slipSt s p).rxBuf = fr
    :: rest ∧ portRuns s p = true ∧ fr.typ = 1 ∧ ingressOk s p fr = true ∧ ingressFits s p fr = true ∧ fr.wf = true ∧ (rest = [] ∨ ∃
    next r, rest = next :: r ∧ serveFrame (ingressWrite s p fr) p next = none) ∧ RingInTsr (qd s fr.qid.toNat) ∧ s.memOk :=
  ⟨.slp0, wFrame 1 1 1 16, [], wIn (fun x => { x with rxBuf := [wFrame 1 1 1 16], used := [0, 2] }), by decide +kernel,
    by decide +kernel, by decide +kernel, by decide +kernel, by decide +kernel, by decide +kernel, Or.inl rfl, by decide +kernel,
    by decide +kernel⟩

theorem witness_OtherReceptionsAreAnswered_1 : ∃ (p : Port) (s : State), portRuns s p = true ∧ (slipSt s p).state = .up :=
  ⟨.slp0, wUp (fun x => { x with replay := [wSent 3] }), by decide +kernel⟩

theorem witness_OtherReceptionsAreAnswered_2 : ∃ (p : Port) (c : BadColumn) (s : State), Instr.wf (.badControlColumn p c) = true ∧
    portRuns s p = true ∧ (slipSt s p).en = true :=
  ⟨.slp0, .symbol, wUp (fun x => { x with rxbad := 255 }), by decide +kernel⟩

theorem witness_OtherReceptionsAreAnswered_3 : ∃ (p : Port) (k : BadFrameKind) (s : State), Instr.wf (.badFrame p k) = true ∧ receives s
    p = true ∧ (slipSt s p).nakHold = false :=
  ⟨.slp0, .ahead, wUp id, by decide +kernel⟩

theorem witness_OtherReceptionsAreAnswered_4 : ∃ (p : Port) (k : BadFrameKind) (s : State), Instr.wf (.badFrame p k) = true ∧ receives s
    p = true ∧ (slipSt s p).nakHold = true :=
  ⟨.slp0, .crc { wFrame 4 0 0 4 with crc := 0 }, wUp (fun x => { x with nakHold := true }), by decide +kernel⟩

theorem witness_OtherReceptionsAreAnswered_6 : ∃ (p : Port) (fr : SlipFrame) (s : State), Instr.wf (.pingReceive p fr) = true ∧ receives
    s p = true ∧ fr.seq = (slipSt s p).nextRx ∧ frameCost fr ≤ 16 - nth (slipSt s p).used 0 0 ∧ fr.len.toNat ≤ 64 ∧ (slipSt s
    p).vc0.length < 16 :=
  ⟨.slp0, wFrame 4 0 0 16, wUp id, by decide +kernel⟩

theorem witness_OtherReceptionsAreAnswered_7 : ∃ (p : Port) (fr : SlipFrame) (s : State), Instr.wf (.pongReceive p fr) = true ∧ receives
    s p = true ∧ fr.seq = (slipSt s p).nextRx ∧ frameCost fr ≤ 16 - nth (slipSt s p).used 0 0 ∧ fr.len.toNat ≤ 64 :=
  ⟨.slp0, wFrame 5 0 0 0, wUp id, by decide +kernel⟩

theorem witness_OtherReceptionsAreAnswered_8 : ∃ (p : Port) (fr : SlipFrame) (s : State), Instr.wf (.reservedTypeFrameReceive p fr) =
    true ∧ receives s p = true ∧ fr.seq = (slipSt s p).nextRx ∧ fr.vc = 1 ∧ frameCost fr ≤ 192 - nth (slipSt s p).used 1 0 ∧ (slipSt s
    p).rxBuf = [] :=
  ⟨.slp0, wFrame 9 1 0 4, wUp id, by decide +kernel⟩

theorem witness_OtherReceptionsAreAnswered_9 : ∃ (p : Port) (fr : SlipFrame) (s : State), Instr.wf (.reservedTypeFrameReceive p fr) =
    true ∧ receives s p = true ∧ fr.seq = (slipSt s p).nextRx ∧ 2 ≤ fr.vc.toNat :=
  ⟨.slp0, wFrame 9 3 0 4, wUp id, by decide +kernel⟩

theorem witness_OtherReceptionsAreAnswered_10 : ∃ (p : Port) (fr : SlipFrame) (s : State), Instr.wf (.pingReceive p fr) = true ∧
    receives s p = true ∧ fr.seq ≠ (slipSt s p).nextRx :=
  ⟨.slp0, withCrc { wFrame 4 0 0 4 with seq := 0xFFFF }, wUp id, by decide +kernel⟩

theorem witness_EgressSendsInTurn_1 : ∃ (p : Port) (x : TxFrame) (s : State), portRuns s p = true ∧ (slipSt s p).state = .up ∧ bridgeUp
    s p = true ∧ (slipSt s p).resend ≠ 0 ∧ (slipSt s p).replay[(slipSt s p).replay.length - (slipSt s p).resend]? = some x ∧ x.charged =
    true :=
  ⟨.slp0, wSent 4, wUp (fun x => { x with replay := [wSent 3, wSent 4], resend := 1 }), by decide +kernel⟩

theorem witness_EgressSendsInTurn_2 : ∃ (p : Port) (fr : SlipFrame) (rest : List SlipFrame) (s : State), portRuns s p = true ∧ (slipSt s
    p).state = .up ∧ bridgeUp s p = true ∧ (slipSt s p).resend = 0 ∧ portFrozen s = false ∧ islRuns s 24 = true ∧ pdOn s 7 = true ∧
    (slipSt s p).vc0 = fr :: rest ∧ frameCost fr ≤ (slipSt s p).avail 0 ∧ replayRoom (slipSt s p) fr = true :=
  ⟨.slp0, wFrame 5 0 0 16, [], wUp (fun x => { x with vc0 := [wFrame 5 0 0 16], peerCum := [2, 0, 0] }), by decide +kernel⟩

theorem witness_EgressSendsInTurn_3 : ∃ (p : Port) (fr : SlipFrame) (k : Nat) (q : Nat) (s : State), portRuns s p = true ∧ (slipSt s
    p).state = .up ∧ bridgeUp s p = true ∧ (slipSt s p).resend = 0 ∧ portFrozen s = false ∧ islRuns s 24 = true ∧ pdOn s 7 = true ∧
    (slipSt s p).vc0 = [] ∧ (slipSt s p).lastVc2 = true ∧ pickQueue s p 1 = some q ∧ queueFrame s p q = some (fr, k) ∧ 0 < k ∧ (qd s
    q).cls ≠ clsUnused ∧ replayRoom (slipSt s p) fr = true :=
  ⟨.slp0, ((queueFrame wEgress .slp0 1).getD (wFrame 1 1 1 0, 0)).1, ((queueFrame wEgress .slp0 1).getD (wFrame 1 1 1 0, 0)).2, 1,
    wEgress, by decide +kernel⟩

theorem witness_EgressSendsInTurn_4 : ∃ (p : Port) (fr : SlipFrame) (rest : List SlipFrame) (s : State), (slipSt s p).resend = 0 ∧
    (slipSt s p).vc0 = fr :: rest ∧ frameCost fr ≤ (slipSt s p).avail 0 ∧ replayRoom (slipSt s p) fr = false :=
  ⟨.slp0, wFrame 5 0 0 16, [], wUp (fun x =>
    { x with vc0 := [wFrame 5 0 0 16], peerCum := [2, 0, 0], replay := (List.range 256).map (fun k => wSent (BitVec.ofNat 16 k)) }),
    by decide +kernel⟩

theorem witness_ChannelsAndPinsAreSetUp_1 : ∃ (n : Fin 16) (v : Word) (s : State), s.wf ∧ WinReaches (0x40030100 + n.val * 0x10000) s ∧
    chEn (chanSt s n.val) = false ∧ bit v 31 = true ∧ chConfigOk (updChan s n.val (fun c =>
    { c with ctrl := writeReg chCtrlFields c.ctrl v })) { chanSt s n.val with ctrl := writeReg chCtrlFields (chanSt s n.val).ctrl v } =
    true :=
  ⟨0, 0x83008500, wRun, by decide +kernel⟩

theorem witness_ChannelsAndPinsAreSetUp_2 : ∃ (n : Fin 16) (v : Word) (s : State), s.wf ∧ WinReaches (0x40030100 + n.val * 0x10000) s ∧
    chEn (chanSt s n.val) = false ∧ bit v 31 = true ∧ chConfigOk (updChan s n.val (fun c =>
    { c with ctrl := writeReg chCtrlFields c.ctrl v })) { chanSt s n.val with ctrl := writeReg chCtrlFields (chanSt s n.val).ctrl v } =
    false :=
  ⟨15, 0x83008500, updChan wRun 15 (fun c => { c with per := 99 }), by decide +kernel⟩

theorem witness_ChannelsAndPinsAreSetUp_3 : ∃ (n : Fin 16) (v : Word) (s : State), s.wf ∧ WinReaches (0x40030100 + n.val * 0x10000) s ∧
    chEn (chanSt s n.val) = true ∧ bit v 31 = false :=
  ⟨0, 0x03008500, wChan (fun c => { c with ctrl := 0x83008500 }), by decide +kernel⟩

theorem witness_ChannelsAndPinsAreSetUp_4 : ∃ (k : Fin 24) (v : Word) (s : State), s.wf ∧ WinReaches (0x40130140 + 4 * k.val) s ∧
    pinInUse s k.val = false ∧ bits v 2 0 ≤ 3 ∧ bits v 5 4 ≤ 2 ∧ ¬ PinClash s k.val (bits v 2 0) :=
  ⟨0, 0x12, wRun, by decide +kernel⟩

theorem witness_ChannelsAndPinsAreSetUp_5 : ∃ (k : Fin 24) (v : Word) (s : State), s.wf ∧ WinReaches (0x40130140 + 4 * k.val) s ∧
    pinInUse s k.val = false ∧ bits v 2 0 ≤ 3 ∧ PinClash s k.val (bits v 2 0) :=
  ⟨23, 3, wRun, by decide +kernel⟩

theorem witness_ChannelsAndPinsAreSetUp_6 : ∃ (k : Fin 24) (v : Word) (s : State), WinReaches (0x40130140 + 4 * k.val) s ∧ pinInUse s
    k.val = true :=
  ⟨3, 1, updSns (wChan (fun c => { c with ctrl := 0x83008C03 })) (fun x => { x with spcfg := upd x.spcfg 3 (fun _ => 1) }),
    by decide +kernel⟩

theorem witness_SlotsEndInAVerdict_1 : ∃ (n : Fin 16) (u : Nat) (s : State), s.wf ∧ pdOn s 2 = true ∧ (islSt s (3 + n.val)).held = false
    ∧ chEn (chanSt s n.val) = true ∧ 0 < chPer (chanSt s n.val) ∧ u % chPer (chanSt s n.val) = chPhase (chanSt s n.val) ∧ (chanSt s
    n.val).slot = .idle ∧ (chSrc (chanSt s n.val) ≤ 5 → sourceHeld s (chSrc (chanSt s n.val)) = false) :=
  ⟨0, 2000, wChan (fun c => { c with ctrl := 0x83008500 }), by decide +kernel⟩

theorem witness_SlotsEndInAVerdict_2 : ∃ (n : Fin 16) (u : Nat) (s : State) (m : Nat), s.wf ∧ pdOn s 2 = true ∧ (islSt s (3 +
    n.val)).held = false ∧ chEn (chanSt s n.val) = true ∧ 0 < chPer (chanSt s n.val) ∧ u % chPer (chanSt s n.val) = chPhase (chanSt s
    n.val) ∧ (chanSt s n.val).slot = .idle ∧ chSrc (chanSt s n.val) ≤ 5 ∧ sourceHolder s (chSrc (chanSt s n.val)) = some m ∧ (m < n.val
    ∨ (chanSt s m).slotU ≠ u) :=
  ⟨1, 2000, updChan (wChan (fun c => { c with ctrl := 0x83008500, slot := .transfer })) 1 (fun c => { c with ctrl := 0x83008500 }), 0,
    by decide +kernel⟩

theorem witness_SlotsEndInAVerdict_3 : ∃ (n : Fin 16) (s : State), s.wf ∧ (chanSt s n.val).slot = .waiting :=
  ⟨0, wChan (fun c => { c with ctrl := 0x83008500, slot := .waiting, missRun := 2 }), by decide +kernel⟩

theorem witness_SlotsEndInAVerdict_4 : ∃ (n : Fin 16) (low : Bool) (s : State), s.wf ∧ (chanSt s n.val).slot = .transfer :=
  ⟨0, false, wChan (fun c => { c with ctrl := 0x83008500, slot := .transfer }), by decide +kernel⟩

theorem witness_SlotsEndInAVerdict_5 : ∃ (n : Fin 16) (r : SampleIn) (s : State) (x : BitVec 16), s.wf ∧ Instr.wf (.sampleDone n r) =
    true ∧ (chanSt s n.val).slot = .transfer ∧ rawOf s n.val r = some (some x) ∧ (chClipf (chanSt s n.val) = 0 ∨ (pipeline (chanSt s
    n.val) x.toInt).2.2 = false) :=
  ⟨0, .adc [900000000] true, wChan (fun c => { c with ctrl := 0x83008500, slot := .transfer }), 0x800, by decide +kernel⟩

theorem witness_SlotsEndInAVerdict_6 : ∃ (n : Fin 16) (r : SampleIn) (s : State), s.wf ∧ Instr.wf (.sampleDone n r) = true ∧ (chanSt s
    n.val).slot = .transfer ∧ rawOf s n.val r = some none :=
  ⟨0, .adc [0x800] false, wChan (fun c => { c with ctrl := 0x83008500, slot := .transfer }), by decide +kernel⟩

theorem witness_InputsAndTransfersAreKept_1 : ∃ (c : Fin 4) (a : Bool) (b : Bool) (s : State), s.wf ∧ pdOn s 2 = true ∧ counterLatched s
    c.val = false ∧ sigLive s (.cntA c.val) = true ∧ (pulseMode s c.val = true ∨ sigLive s (.cntB c.val) = true) :=
  ⟨0, true, false, wSns (fun x => { x with spcfg := upd (upd x.spcfg 4 (fun _ => 2)) 5 (fun _ => 2) }), by decide +kernel⟩

theorem witness_InputsAndTransfersAreKept_2 : ∃ (c : Fin 4) (a : Bool) (b : Bool) (s : State), counterLatched s c.val = true :=
  ⟨0, true, false, updPwr (wSns (fun x => { x with spcfg := upd (upd x.spcfg 4 (fun _ => 2)) 5 (fun _ => 2) })) (fun p =>
    { p with pads := 0xFF }), by decide +kernel⟩

theorem witness_InputsAndTransfersAreKept_3 : ∃ (p : Fin 2) (v : BitVec 16) (ch : Bool) (s : State), pdmLive s p.val = true ∧ s.sce.aud
    ≠ p.val + 1 :=
  ⟨0, 0x8000, true, wSns (fun x => { x with spcfg := upd (upd x.spcfg 5 (fun _ => 3)) 6 (fun _ => 3), buscfg := 0x40049 }),
    by decide +kernel⟩

theorem witness_InputsAndTransfersAreKept_4 : ∃ (p : Fin 2) (v : BitVec 16) (ch : Bool) (s : State), s.memOk ∧ pdmLive s p.val = true ∧
    s.sce.aud = p.val + 1 ∧ pdOn s 4 = true ∧ s.sce.pcmPos < 1024 :=
  ⟨0, 0x8001, true, updSce (wSns (fun x => { x with spcfg := upd (upd x.spcfg 5 (fun _ => 3)) 6 (fun _ => 3), buscfg := 0x40049 })) (fun
    c => { c with aud := 1, pcmPos := 1023 }), by decide +kernel⟩

theorem witness_InputsAndTransfersAreKept_5 : ∃ (uv : Nat) (s : State), pdPowered s 2 = true :=
  ⟨1800000, wRun, by decide +kernel⟩

theorem witness_InputsAndTransfersAreKept_6 : ∃ (uv : Nat) (s : State), pdPowered s 2 = false :=
  ⟨3300000, wNoI59, by decide +kernel⟩

theorem witness_InputsAndTransfersAreKept_7 : ∃ (v : Word) (s : State), WinReaches 0x401301C0 s ∧ bit v 31 = true ∧ bit s.sns.xfer.ctrl
    31 = false ∧ bits v 27 24 ≤ 4 ∧ busUsed s (bits v 27 24) = false ∧ bits v 7 4 ≤ 8 ∧ bits v 3 0 ≤ 8 :=
  ⟨0x84000088, wRun, by decide +kernel⟩

theorem witness_InputsAndTransfersAreKept_8 : ∃ (v : Word) (s : State), WinReaches 0x401301C0 s ∧ bit v 31 = true ∧ bit s.sns.xfer.ctrl
    31 = false ∧ bits v 27 24 ≤ 4 ∧ busUsed s (bits v 27 24) = true :=
  ⟨0x80000011, wChan (fun c => { c with ctrl := 0x80008000, slot := .transfer }), by decide +kernel⟩

theorem witness_InputsAndTransfersAreKept_9 : ∃ (v : Word) (s : State), WinReaches 0x403E0500 s ∧ bit v 31 = true ∧ bit s.iotXfer.ctrl
    31 = false ∧ bits v 27 24 ≤ 1 ∧ bits v 7 4 ≤ 8 ∧ bits v 3 0 ≤ 8 :=
  ⟨0x81000011, wRun, by decide +kernel⟩

theorem witness_InputsAndTransfersAreKept_10 : ∃ (iot : Bool) (bs : List Byte) (low : Bool) (s : State) (x : Xfer), x = (if iot then
    s.iotXfer else s.sns.xfer) ∧ bit x.ctrl 31 = true ∧ bs.length = bits x.ctrl 3 0 ∧ bs.length ≤ 8 ∧ manualLive s iot = true ∧ (iot =
    true → (tileSt s .io).link = .up) :=
  ⟨true, [1, 2], false, updTile { wRun with iotXfer := ⟨0x81000002, 0xFFFFFFFF, 5, [0, 1], []⟩ } .io (fun y => { y with link := .up }),
    ⟨0x81000002, 0xFFFFFFFF, 5, [0, 1], []⟩, by decide +kernel⟩

theorem witness_InputsAndTransfersAreKept_11 : ∃ (iot : Bool) (e : XferEnd) (low : Bool) (s : State) (x : Xfer), x = (if iot then
    s.iotXfer else s.sns.xfer) ∧ bit x.ctrl 31 = true ∧ Instr.wf (.manualTransferDone iot e low) = true ∧ (e = .nack ∨ manualLive s iot
    = false) ∧ (iot = true → (tileSt s .io).link = .up) :=
  ⟨false, .nack, true, wSns (fun x => { x with xfer := ⟨0x82000002, 0xFFFFFFFF, 5, [0, 0, 1, 0, 0], []⟩ }), ⟨0x82000002, 0xFFFFFFFF, 5,
    [0, 0, 1, 0, 0], []⟩, by decide +kernel⟩

theorem witness_InputsAndTransfersAreKept_12 : ∃ (iot : Bool) (low : Bool) (s : State) (x : Xfer), x = (if iot then s.iotXfer else
    s.sns.xfer) ∧ bit x.ctrl 31 = true :=
  ⟨true, true, { wRun with iotXfer := ⟨0x81000002, 0xFFFFFFFF, 5, [0, 1], []⟩ }, ⟨0x81000002, 0xFFFFFFFF, 5, [0, 1], []⟩,
    by decide +kernel⟩

theorem witness_InputsReachTheirRules_1 : ∃ (n : Fin 16) (v : BitVec 2) (x : BitVec 16) (rest : List (Nat × BitVec 2 × BitVec 16)) (s :
    State), s.sns.toHp = (n.val, v, x) :: rest ∧ i2Runs s = true ∧ s.wf :=
  ⟨0, 0, 0x101, [], updSns wArmed (fun x => { x with toHp := [(0, 0, 0x101)] }), by decide +kernel⟩

theorem witness_InputsReachTheirRules_2 : ∃ (s : State), s.hp.sceIn = true ∧ i2Runs s = true ∧ s.wf :=
  ⟨wHp (fun h => { h with sceIn := true, rules := upd h.rules 2 (fun _ => 0xA0000000) }), by decide +kernel⟩

theorem witness_InputsReachTheirRules_3 : ∃ (s : State), s.hp.silent = false ∧ i2Runs s = true ∧ s.wf :=
  ⟨wHp (fun h => { h with rules := upd h.rules 2 (fun _ => 0xA0000000) }), by decide +kernel⟩

theorem witness_TripHaltsTheOutputs_1 : ∃ (n : Fin 16) (s : State) (t : State), s.wf ∧ exec (.hpInputVerdict n) s = .next t ∧ i2Runs s =
    true ∧ haltTripped t.hp = true ∧ (s.sns.toHp.any (fun u => u.1 == n.val)) = true :=
  ⟨0, updSns wArmed (fun x => { x with toHp := [(0, 0, 0x101)] }), wNext wRun (exec (.hpInputVerdict 0) (updSns wArmed (fun x =>
    { x with toHp := [(0, 0, 0x101)] }))), by decide +kernel, next_witness (by decide +kernel), by decide +kernel, by decide +kernel,
    by decide +kernel⟩

theorem witness_KeysArmAndRelease_1 : ∃ (f : Fr) (s : State), Reaches f 0x51 0x5A17 s ∧ life s ≠ .retired ∧ s.hp.armSeq = false :=
  ⟨wFr 0x51 0x5A17, wRun, by decide +kernel⟩

theorem witness_KeysArmAndRelease_2 : ∃ (f : Fr) (s : State), Reaches f 0x51 0x5A17 s ∧ life s ≠ .retired ∧ s.hp.armSeq = true :=
  ⟨wFr 0x51 0x5A17, wHp (fun h => { h with armSeq := true }), by decide +kernel⟩

theorem witness_KeysArmAndRelease_3 : ∃ (f : Fr) (s : State), Reaches f 0x51 0xA5E8 s ∧ life s ≠ .retired ∧ s.hp.armSeq = true ∧
    armCause s = none :=
  ⟨wFr 0x51 0xA5E8, updHp wArmed (fun h => { h with armed := false, released := false, armSeq := true }), by decide +kernel⟩

theorem witness_KeysArmAndRelease_4 : ∃ (f : Fr) (s : State) (k : Nat), Reaches f 0x51 0xA5E8 s ∧ life s ≠ .retired ∧ s.hp.armSeq = true
    ∧ armCause s = some k :=
  ⟨wFr 0x51 0xA5E8, wHp (fun h => { h with armSeq := true }), kNoHalt, by decide +kernel⟩

theorem witness_KeysArmAndRelease_5 : ∃ (f : Fr) (s : State), Reaches f 0x51 0xA5E8 s ∧ life s ≠ .retired ∧ s.hp.armSeq = false :=
  ⟨wFr 0x51 0xA5E8, wRun, by decide +kernel⟩

theorem witness_KeysArmAndRelease_6 : ∃ (s : State), s.hp.armSeq = true :=
  ⟨wHp (fun h => { h with armSeq := true }), by decide +kernel⟩

theorem witness_KeysArmAndRelease_7 : ∃ (f : Fr) (s : State), Reaches f 0x51 0x3C96 s ∧ s.hp.armSeq = false ∧ releaseCause s = none :=
  ⟨wFr 0x51 0x3C96, updHp wArmed (fun h => { h with released := false }), by decide +kernel⟩

theorem witness_KeysArmAndRelease_8 : ∃ (f : Fr) (s : State) (k : Nat), Reaches f 0x51 0x3C96 s ∧ s.hp.armSeq = false ∧ releaseCause s =
    some k :=
  ⟨wFr 0x51 0x3C96, wRun, 5, by decide +kernel⟩

theorem witness_KeysArmAndRelease_9 : ∃ (f : Fr) (s : State), Reaches f 0x51 0xD15A s ∧ life s ≠ .retired ∧ life s ≠ .sealed ∧
    s.hp.armSeq = false ∧ armedBit s = true ∧ ¬(s.pwr.st = .hibernate ∧ s.pwr.seq = .stable) :=
  ⟨wFr 0x51 0xD15A, wArmed, by decide +kernel⟩

theorem witness_KeysArmAndRelease_10 : ∃ (f : Fr) (s : State), Reaches f 0x51 0xD15A s ∧ life s ≠ .retired ∧ life s ≠ .sealed ∧
    s.hp.armSeq = false ∧ armedBit s = true ∧ s.pwr.st = .hibernate ∧ s.pwr.seq = .stable ∧ s.wf :=
  ⟨wFr 0x51 0xD15A, updPwr wArmed (fun p => { p with st := .hibernate, tgt := .hibernate }), by decide +kernel⟩

theorem witness_KeysArmAndRelease_11 : ∃ (f : Fr) (s : State), Reaches f 0x51 0xD15A s ∧ life s = .sealed ∧ s.hp.armSeq = false ∧
    armedBit s = true :=
  ⟨wFr 0x51 0xD15A, { wArmed with boot := { wRun.boot with lcNow := 3 } }, by decide +kernel⟩

theorem witness_KeysArmAndRelease_12 : ∃ (f : Fr) (s : State), Reaches f 0x51 0xD15A s ∧ life s ≠ .retired ∧ s.hp.armSeq = false ∧
    armedBit s = false :=
  ⟨wFr 0x51 0xD15A, wRun, by decide +kernel⟩

theorem witness_KeysArmAndRelease_13 : ∃ (f : Fr) (key : BitVec 16) (s : State), Reaches f 0x51 (key.setWidth 32) s ∧ life s ≠ .retired
    ∧ key ≠ 0x5A17 ∧ key ≠ 0xA5E8 ∧ key ≠ 0x3C96 ∧ key ≠ 0xD15A :=
  ⟨wFr 0x51 0xFFFF, 0xFFFF, wHp (fun h => { h with armSeq := true }), by decide +kernel⟩

theorem witness_KeysArmAndRelease_14 : ∃ (c : Instr) (f : Fr) (v : Word) (s : State), (c = .armFirstKey f ∧ v = 0x5A17 ∨ c =
    .armSecondKey f ∧ v = 0xA5E8 ∨ c = .disarmKey f ∧ v = 0xD15A) ∧ Reaches f 0x51 v s ∧ life s = .retired ∧ s.hp.armSeq = false :=
  ⟨.disarmKey (wFr 0x51 0xD15A), wFr 0x51 0xD15A, 0xD15A, { wArmed with boot := { wRun.boot with lcNow := 7 } }, by decide +kernel⟩

theorem witness_RulesAndControlAreLocked_1 : ∃ (c : Instr) (f : Fr) (v : Word) (s : State), (c = .hpHold f v ∨ c = .hpRunst f v ∨ c =
    .hpCtrlConfig f v) ∧ Reaches f 0x52 v s ∧ life s ≠ .retired ∧ s.hp.armed = false ∧ s.hp.armSeq = false :=
  ⟨.hpHold (wFr 0x52 0x00640A01) 0x00640A01, wFr 0x52 0x00640A01, 0x00640A01, wRun, by decide +kernel⟩

theorem witness_RulesAndControlAreLocked_2 : ∃ (c : Instr) (f : Fr) (v : Word) (s : State), (c = .hpHold f v ∨ c = .hpRunst f v ∨ c =
    .hpCtrlConfig f v) ∧ Reaches f 0x52 v s ∧ s.hp.armed = true ∧ s.hp.armSeq = false ∧ bits v 15 8 = s.hp.tst ∧ bits v 23 16 =
    s.hp.sceTo :=
  ⟨.hpRunst (wFr 0x52 0x00640A02) 0x00640A02, wFr 0x52 0x00640A02, 0x00640A02, wArmed, by decide +kernel⟩

theorem witness_RulesAndControlAreLocked_3 : ∃ (c : Instr) (f : Fr) (v : Word) (s : State), (c = .hpHold f v ∨ c = .hpRunst f v ∨ c =
    .hpCtrlConfig f v) ∧ Reaches f 0x52 v s ∧ (s.hp.armed = true ∨ life s = .retired) ∧ s.hp.armSeq = false ∧ (1 ≤ bits v 15 8 ∧ bits v
    15 8 ≤ 100 ∧ bits v 15 8 ≠ s.hp.tst ∨ 1 ≤ bits v 23 16 ∧ bits v 23 16 ≠ s.hp.sceTo) :=
  ⟨.hpHold (wFr 0x52 0x00641401) 0x00641401, wFr 0x52 0x00641401, 0x00641401, wArmed, by decide +kernel⟩

theorem witness_RulesAndControlAreLocked_4 : ∃ (f : Fr) (v : Word) (s : State), Reaches f 0x50 v s ∧ s.hp.armSeq = false :=
  ⟨wFr 0x50 0x80, 0x80, wArmed, by decide +kernel⟩

theorem witness_RulesAndControlAreLocked_5 : ∃ (f : Fr) (v : Word) (s : State), Reaches f 0x54 v s ∧ life s ≠ .retired ∧ s.hp.armed =
    false ∧ s.hp.armSeq = false ∧ s.wf ∧ s.hp.idx < 64 :=
  ⟨wFr 0x54 0x80000000, 0x80000000, wHp (fun h => { h with idx := 63 }), by decide +kernel⟩

theorem witness_RulesAndControlAreLocked_6 : ∃ (f : Fr) (v : Word) (s : State), Reaches f 0x54 v s ∧ life s = .retired ∧ s.hp.armSeq =
    false :=
  ⟨wFr 0x54 0x80000000, 0x80000000, { wRun with boot := { wRun.boot with lcNow := 7 } }, by decide +kernel⟩

theorem witness_RulesAndControlAreLocked_7 : ∃ (f : Fr) (v : Word) (s : State), Reaches f 0x54 v s ∧ life s ≠ .retired ∧ s.hp.armed =
    true ∧ s.hp.armSeq = false :=
  ⟨wFr 0x54 0x80000000, 0x80000000, wArmed, by decide +kernel⟩

theorem witness_RulesAndControlAreLocked_8 : ∃ (r : Rd) (s : State), cpServes s = true ∧ addressed s r.addr = true ∧ (r.early = false ∨
    s.boot.strapCp = true) ∧ r.pre = [] :=
  ⟨wRd, wHp (fun h => { h with idx := 63 }), by decide +kernel⟩

theorem witness_ChecksDecideArmingAndRelease_1 : ∃ (s : State), i2Runs s = true :=
  ⟨wRun, by decide +kernel⟩

theorem witness_ChecksDecideArmingAndRelease_2 : ∃ (o : SelfTestObs) (s : State), i2Runs s = true ∧ s.hp.stRun = true ∧ selftestCause s
    o = 0 ∧ (s.hp.arming = true → armCause s = none) :=
  ⟨⟨true, true⟩, updHp wArmed (fun h => { h with armed := false, released := false, stRun := true, arming := true }), by decide +kernel⟩

theorem witness_ChecksDecideArmingAndRelease_3 : ∃ (o : SelfTestObs) (s : State) (k : Nat), i2Runs s = true ∧ s.hp.stRun = true ∧
    selftestCause s o = 0 ∧ s.hp.arming = true ∧ armCause s = some k :=
  ⟨⟨true, true⟩, wHp (fun h => { h with stRun := true, arming := true }), kNoHalt, by decide +kernel⟩

theorem witness_ChecksDecideArmingAndRelease_4 : ∃ (o : SelfTestObs) (s : State), i2Runs s = true ∧ s.hp.stRun = true ∧ selftestCause s
    o ≠ 0 ∧ s.flt.recs.length < 32 :=
  ⟨⟨false, true⟩, wHp (fun h => { h with stRun := true, arming := true }), by decide +kernel⟩

theorem witness_ChecksDecideArmingAndRelease_5 : ∃ (ball : FbBall) (s : State), i2Runs s = true ∧ (if ball = .a then s.hp.misA else
    s.hp.misB) = false ∧ s.flt.recs.length < 32 :=
  ⟨.b, wArmed, by decide +kernel⟩

theorem witness_InferencesRunToAResult_1 : ∃ (v : Word) (s : State), WinReaches 0x40140100 s :=
  ⟨0x80008010, wSce (fun c => { c with loaded := true, tinf := 1000 }), by decide +kernel⟩

theorem witness_InferencesRunToAResult_2 : ∃ (u : Nat) (s : State), s.wf ∧ s.memOk ∧ pdOn s 3 = true ∧ pdOn s 4 = true ∧ s.sce.run =
    true ∧ 0 < bits s.sce.per 19 0 ∧ u % bits s.sce.per 19 0 = 0 ∧ (islSt s 20).held = false ∧ s.sce.busy = false ∧ (∀ n ∈ sceChans
    s.sce, (chanSt s n).verdict ≠ vStale ∧ (chanSt s n).verdict ≠ vFault) ∧ (gatherInput s).length ≤ 0x1000 :=
  ⟨80000, updSce (wChan (fun c => { c with ctrl := 0x83008500, verdict := 0, hist := [3, 2], first := some 2 })) (fun c =>
    { c with run := true, loaded := true, cbase := sceModel, ncmd := 1, inp := 0x00010006 }), by decide +kernel⟩

theorem witness_InferencesRunToAResult_3 : ∃ (u : Nat) (s : State), s.wf ∧ pdOn s 3 = true ∧ pdOn s 4 = true ∧ s.sce.run = true ∧ 0 <
    bits s.sce.per 19 0 ∧ u % bits s.sce.per 19 0 = 0 ∧ (islSt s 20).held = false ∧ (s.sce.busy = true ∨ ∃ n ∈ sceChans s.sce, (chanSt s
    n).verdict = vStale ∨ (chanSt s n).verdict = vFault) :=
  ⟨80000, wSce (fun c => { c with run := true, loaded := true, inp := 0x00010006 }), by decide +kernel⟩

theorem witness_InferencesRunToAResult_4 : ∃ (s : State) (cs : List Nat), s.sce.busy = true ∧ (engSt s .sce).cur = none ∧ cs =
    (readBytes s sceResult 64).map BitVec.toNat ∧ s.memOk ∧ s.wf ∧ (∀ k < 3, (sedOpen s k).cnt.length = 64) :=
  ⟨updSce wRun (fun c => { c with run := true, loaded := true, busy := true }), many 64 0, by decide +kernel⟩

theorem witness_InferencesRunToAResult_5_check : ∃ (s : State) (code cas : Nat), ∃ x, startOf s .sce = some x ∧ s.wf ∧ engineReady s
    .sce = true ∧ (fetchEcc s x.l = false ∧ illegal s .sce x.l x.en x.c = some ⟨240, 1, none⟩ ∧ code = 1 ∧ cas = 240) ∧
    s.flt.recs.length < 32 :=
  ⟨wSceCmd (wCtl 0xFF 0 0), 1, 240, startOf_witness (by decide +kernel)⟩

theorem witness_InferencesRunToAResult_5_fetch : ∃ (s : State) (code cas : Nat), ∃ x, startOf s .sce = some x ∧ s.wf ∧ engineReady s
    .sce = true ∧ (fetchEcc s x.l = true ∧ code = 0x10 ∧ cas = 0) ∧ s.flt.recs.length < 32 :=
  ⟨{ wSceCmd (wCtl 0 0 0) with ecc := [sceModel] }, 0x10, 0, startOf_witness (by decide +kernel)⟩

theorem witness_InferencesRunToAResult_5_operand : ∃ (s : State) (code cas : Nat), ∃ x, startOf s .sce = some x ∧ s.wf ∧ engineReady s
    .sce = true ∧ (fetchEcc s x.l = false ∧ illegal s .sce x.l x.en x.c = none ∧ operandEcc s .sce x.os = true ∧ code = 0x10 ∧ cas = 0)
    ∧ s.flt.recs.length < 32 :=
  ⟨{ wSceCmd (wWords 0x10 0 0 0x18000000 0 0x1807F700 4 1 0 0 4 4) with ecc := [sceInput] }, 0x10, 0, startOf_witness
    (by decide +kernel)⟩

theorem witness_SedimentIsRolledUpAndRead_1 : ∃ (s : State), s.wf ∧ s.memOk ∧ sedLive s = true ∧ (islSt s 54).held = false ∧ (sedOpen s
    0).n ≠ 0 ∧ (sedOpen s 0).cnt.length = 64 ∧ (sedOpen s 1).cnt.length = 64 ∧ (sedOpen s 0).start + 2 ^ 20 ≤ dtNow (instant s) ∧ dtNow
    (instant s) < (sedOpen s 1).start + 60 * 2 ^ 20 ∧ dtNow (instant s) < (sedOpen s 2).start + 3600 * 2 ^ 20 :=
  ⟨{ wNoI59 with tim := { wRun.tim with dt := 0x100005 }, sed := { wRun.sed with opens := [⟨0, 3, 0, false, upd (many 64 0) 5 (fun _ => 3)⟩, .empty 0, .empty 0] } },
    by decide +kernel⟩

theorem witness_SedimentIsRolledUpAndRead_2 : ∃ (s : State), s.wf ∧ s.memOk ∧ sedLive s = true ∧ (islSt s 54).held = false ∧ (sedOpen s
    0).n = 0 ∧ (sedOpen s 0).incomplete = false ∧ (sedOpen s 0).start + 2 ^ 20 ≤ dtNow (instant s) ∧ dtNow (instant s) < (sedOpen s
    1).start + 60 * 2 ^ 20 ∧ dtNow (instant s) < (sedOpen s 2).start + 3600 * 2 ^ 20 :=
  ⟨{ wNoI59 with tim := { wRun.tim with dt := 0x100005 } }, by decide +kernel⟩

theorem witness_SedimentIsRolledUpAndRead_3 : ∃ (f : Fr) (v : Word) (s : State), Reaches f 0x64 v s ∧ sedQueryDark s = false ∧ bits v 31
    30 ≠ 3 :=
  ⟨wFr 0x64 3, 3, wSed (fun d => { d with written := [1, 0, 0] }), by decide +kernel⟩

theorem witness_SedimentIsRolledUpAndRead_4 : ∃ (f : Fr) (v : Word) (s : State), Reaches f 0x64 v s ∧ sedQueryDark s = true :=
  ⟨wFr 0x64 3, 3, wNoSed, by decide +kernel⟩

theorem witness_SedimentIsRolledUpAndRead_5 : ∃ (s : State), s.sed.pbusy = true ∧ s.sed.ppeer = false ∧ s.sed.plate = false ∧ pdDark s
    17 = false ∧ removedByEntry s 17 = false ∧ s.wiping.contains .sed = false ∧ queryBad s = false ∧ eccHit s (queryAddr s) 4 = false :=
  ⟨wSed (fun d => { d with written := [1, 0, 0], qaddr := 3, sel := some 0, selBad := false, pbusy := true, pstat := 0 }),
    by decide +kernel⟩

theorem witness_SedimentIsRolledUpAndRead_6 : ∃ (s : State), s.sed.pbusy = true ∧ s.sed.ppeer = false ∧ s.sed.plate = false ∧ pdDark s
    17 = false ∧ removedByEntry s 17 = false ∧ s.wiping.contains .sed = false ∧ queryBad s = true :=
  ⟨wSed (fun d => { d with qaddr := 3, sel := none, selBad := true, pbusy := true }), by decide +kernel⟩

theorem witness_SedimentIsRolledUpAndRead_7 : ∃ (s : State), s.sed.pbusy = true ∧ s.sed.ppeer = true :=
  ⟨wSed (fun d => { d with pbusy := true, ppeer := true }), by decide +kernel⟩

theorem witness_SedimentIsRolledUpAndRead_8 : ∃ (r : Rd) (s : State), cpServes s = true ∧ addressed s r.addr = true ∧ (r.early = false ∨
    s.boot.strapCp = true) ∧ r.pre = [] ∧ life s ≠ .retired ∧ sedQueryDark s = false ∧ s.sed.pbusy = false ∧ queryBad s = false ∧
    s.sed.pstat = 0 :=
  ⟨wRd, wSed (fun d => { d with written := [1, 0, 0], qaddr := 3, sel := some 0, selBad := false, pbusy := false, pstat := 0 }),
    by decide +kernel⟩

theorem witness_SedimentIsRolledUpAndRead_9 : ∃ (r : Rd) (s : State), cpServes s = true ∧ addressed s r.addr = true ∧ (r.early = false ∨
    s.boot.strapCp = true) ∧ r.pre = [] ∧ life s ≠ .retired ∧ sedQueryDark s = false ∧ (s.sed.pbusy = true ∨ queryBad s = true) :=
  ⟨wRd, wSed (fun d => { d with qaddr := 3, sel := some 0, selBad := false, pbusy := true }), by decide +kernel⟩

theorem witness_StreamsAndStallsAreAdmitted_1 : ∃ (q : BitVec 14) (s : State), WinReaches 0x40180100 s :=
  ⟨1, wQm (fun m => { m with qdt := [(1, { wData with rbw := 255 })] }), by decide +kernel⟩

theorem witness_StreamsAndStallsAreAdmitted_2 : ∃ (q : BitVec 14) (s : State), WinReaches 0x40180100 s ∧ s.qm.streams.contains q.toNat =
    true :=
  ⟨1, wQm (fun m => { m with qdt := [(1, { wData with rbw := 255 })], streams := [1] }), by decide +kernel⟩

theorem witness_StreamsAndStallsAreAdmitted_3 : ∃ (q : BitVec 14) (s : State), WinReaches 0x40180100 s ∧ s.qm.streams.contains q.toNat =
    false :=
  ⟨1, wRun, by decide +kernel⟩

theorem witness_StreamsAndStallsAreAdmitted_4 : ∃ (e : Eng) (q : BitVec 14) (l : Lane) (s : State), engineReady s e = true ∧ islRuns s
    24 = true ∧ (engSt s e).cur = some l ∧ l.stage = .stallIn q ∧ (qd s q.toNat).vis ≠ 0 :=
  ⟨.te0, 1, { wLane with stage := .stallIn 1 }, wStage .te0 (.stallIn 1) (wWords 0x0D 0 0 0x80000001 0 0x1000 2 0 0 0 0 0),
    by decide +kernel⟩

theorem witness_StreamsAndStallsAreAdmitted_5 : ∃ (c : Instr) (e : Eng) (req : List (Nat × Nat)) (l : Lane) (s : State), (c =
    .reservationGrant e ∨ c = .queueStallEnd e) ∧ engineReady s e = true ∧ islRuns s 24 = true ∧ (engSt s e).cur = some l ∧ l.stage =
    .stallOut req ∧ (∀ x ∈ req, (qd s x.1).ovf = true ∨ x.2 ≤ qFree s x.1) :=
  ⟨.reservationGrant .te0, .te0, [(2, 2)], { wLane with stage := .stallOut [(2, 2)] }, wStage .te0 (.stallOut [(2, 2)]) (wWords 0x0C 0 0
    0x1000 0 0x80000002 2 0 0 0 0 0), by decide +kernel⟩

theorem witness_StreamsAndStallsAreAdmitted_6 : ∃ (c : Instr) (e : Eng) (req : List (Nat × Nat)) (l : Lane) (s : State), (c =
    .reservationGrant e ∨ c = .queueStallEnd e) ∧ (engSt s e).cur = some l ∧ l.stage = .stallOut req ∧ (∃ x ∈ req, (qd s x.1).ovf =
    false ∧ qFree s x.1 < x.2) :=
  ⟨.queueStallEnd .te0, .te0, [(2, 17)], { wLane with stage := .stallOut [(2, 17)] }, wStage .te0 (.stallOut [(2, 17)]) (wWords 0x0C 0 0
    0x1000 0 0x80000002 17 0 0 0 0 0), by decide +kernel⟩

theorem witness_StreamsAndStallsAreAdmitted_7 : ∃ (q : BitVec 14) (s : State), islRuns s 24 = true ∧ stalledOn s q.toNat = true ∧ (qd s
    q.toNat).cls = clsSink ∧ (qd s q.toNat).ovf = false ∧ s.qm.sstall ≠ 0 ∧ s.qm.reported.contains q.toNat = false :=
  ⟨3, updQm (wStage .te0 (.stallOut [(3, 17)]) (wWords 0x0C 0 0 0x1000 0 0x80000002 2 0 0 0 0 0)) (fun m =>
    { m with qdt := [(3, { wData with cls := clsSink })] }), by decide +kernel⟩

theorem witness_StreamsAndStallsAreAdmitted_8 : ∃ (s : State) (ord : Bool) (ev : Event) (rest : List (Bool × Event)), s.qm.evPend =
    (ord, ev) :: rest ∧ s.qm.evq.length + 64 ≤ 256 ∧ islRuns s 24 = true :=
  ⟨wQm (fun m => { m with evPend := [(true, .mark 1 2 3 4)] }), true, .mark 1 2 3 4, [], by decide +kernel⟩

theorem witness_IllegalCommandsFaultTheirJob_1_illegal : ∃ (r : Nat × (Eng → Instr)) (e : Eng) (s : State), r ∈ engineRows ∧ ∃ x,
    startOf s e = some x ∧ s.wf ∧ engineReady s e = true ∧ rangeHeld s (x.l.base + x.l.off) 32 = false ∧ e ≠ .sce ∧ fetchEcc s x.l =
    false ∧ startIll s e r.1 x = some ⟨240, 1, none⟩ ∧ (entrySt s x.l.entry).st = .running ∧ s.flt.recs.length < 32 :=
  ⟨(0x00, Instr.nop), .te0, wJob .te0 (wCtl 0xFF 0 0), by simp [engineRows], startOf_witness (by decide +kernel)⟩

theorem witness_IllegalCommandsFaultTheirJob_1_fetch : ∃ (r : Nat × (Eng → Instr)) (e : Eng) (s : State), r ∈ engineRows ∧ ∃ x, startOf
    s e = some x ∧ s.wf ∧ engineReady s e = true ∧ rangeHeld s (x.l.base + x.l.off) 32 = false ∧ e ≠ .sce ∧ fetchEcc s x.l = true ∧
    (entrySt s x.l.entry).st = .running ∧ s.flt.recs.length < 32 :=
  ⟨(0x00, Instr.nop), .te0, { wJob .te0 (wCtl 0 0 0) with ecc := [0x10010000] }, by simp [engineRows], startOf_witness
    (by decide +kernel)⟩

theorem witness_IllegalCommandsFaultTheirJob_1_other : ∃ (r : Nat × (Eng → Instr)) (e : Eng) (s : State), r ∈ engineRows ∧ ∃ x, startOf
    s e = some x ∧ s.wf ∧ engineReady s e = true ∧ rangeHeld s (x.l.base + x.l.off) 32 = false ∧ fetchEcc s x.l = false ∧ startIll s e
    r.1 x = none ∧ x.c.opc ≠ r.1 :=
  ⟨(0x00, Instr.nop), .te0, wJob .te0 (wCtl 0x02 0 0), by simp [engineRows], startOf_witness (by decide +kernel)⟩

theorem witness_ControlCommandsRun_1 : ∃ (e : Eng) (s : State), ∃ x, Starts s e 0x00 x ∧ True :=
  ⟨.te0, wJob .te0 (wCtl 0x00 0 0), start_witness (by decide +kernel)⟩

theorem witness_ControlCommandsRun_2 : ∃ (e : Eng) (s : State), ∃ x, Starts s e 0x01 x ∧ e ≠ .sce :=
  ⟨.su, wJob .su (wCtl 0x01 7 8), start_witness (by decide +kernel)⟩

theorem witness_ControlCommandsRun_3 : ∃ (c : Instr) (s : State), ∃ x, Starts s .sce 0x01 x ∧ (c = .mark .sce ∨ c = .sceMark) :=
  ⟨.sceMark, wSceCmd (wCtl 0x01 7 8), start_witness (by decide +kernel)⟩

theorem witness_ControlCommandsRun_4 : ∃ (e : Eng) (s : State), ∃ x, Starts s e 0x02 x ∧ True :=
  ⟨.dm1, wJob .dm1 (wCtl 0x02 0 0), start_witness (by decide +kernel)⟩

theorem witness_ControlCommandsRun_5 : ∃ (e : Eng) (s : State), ∃ x, Starts s e 0x03 x ∧ e ≠ .sce ∧ islRuns s 26 = true ∧ eventWaits s e
    x.l = false ∧ (engSt s e).wait = [] ∧ x.l.entry < 256 :=
  ⟨.te3, wJob .te3 (wCtl 0x03 0 0), start_witness (by decide +kernel)⟩

theorem witness_ControlCommandsRun_6 : ∃ (e : Eng) (l : Lane) (s : State), s.wf ∧ e ≠ .sce ∧ engineReady s e = true ∧ (engSt s e).cur =
    some l ∧ l.stage = .executed ∧ eventWaits s e l = false :=
  ⟨.te0, { wLane with stage := .executed }, wStage .te0 .executed (wCtl 0x00 0 0), by decide +kernel⟩

theorem witness_ControlCommandsRun_7 : ∃ (e : Eng) (l : Lane) (s : State), engineReady s e = true ∧ (engSt s e).cur = some l ∧ l.stage =
    .executed ∧ eventWaits s e l = true :=
  ⟨.te0, { wLane with stage := .executed }, updQm (wStage .te0 .executed (wCtl 0x01000000 0 0)) (fun m =>
    { m with evPend := many 8 (false, .completion .te0 9 0) }), by decide +kernel⟩

theorem witness_ControlCommandsRun_8 : ∃ (e : Eng) (l : Lane) (s : State), s.wf ∧ e ≠ .sce ∧ engineReady s e = true ∧ (engSt s e).cur =
    some l ∧ l.stage = .fenced ∧ fenceWaits s e = false ∧ l.adapt = none ∧ eventWaits s e l = false ∧ cmdAt (viewOf s e) (l.base +
    l.off) = cmdAt s (l.base + l.off) ∧ (cmdAt s (l.base + l.off)).opc ≠ 0x09 :=
  ⟨.te0, { wLane with stage := .fenced }, wStage .te0 .fenced (wCtl 0x02 0 0), by decide +kernel⟩

theorem witness_ControlCommandsRun_9 : ∃ (e : Eng) (l : Lane) (n : Nat) (k : Nat) (s : State), s.wf ∧ e ≠ .sce ∧ engineReady s e = true
    ∧ (engSt s e).cur = some l ∧ l.stage = .fenced ∧ fenceWaits s e = false ∧ l.adapt = none ∧ eventWaits s e l = false ∧ cmdAt (viewOf
    s e) (l.base + l.off) = cmdAt s (l.base + l.off) ∧ (cmdAt s (l.base + l.off)).opc = 0x09 ∧ islRuns s 25 = true ∧ l.entry < 256 ∧ 0 <
    k ∧ n = bits (cmdAt s (l.base + l.off)).p0 9 0 ∧ k = bits (cmdAt s (l.base + l.off)).p1 15 0 :=
  ⟨.te0, { wLane with stage := .fenced }, 0, 3, wStage .te0 .fenced (wCtl 0x09 0 3), by decide +kernel⟩

theorem witness_ControlCommandsRun_10 : ∃ (e : Eng) (l : Lane) (s : State), s.wf ∧ engineReady s e = true ∧ (engSt s e).cur = some l ∧
    l.stage = .abandon :=
  ⟨.te0, { wLane with stage := .abandon }, wStage .te0 .abandon (wCtl 0x02 0 0), by decide +kernel⟩

theorem witness_ControlCommandsRun_11 : ∃ (l : Lane) (s : State), s.wf ∧ engineReady s .sce = true ∧ (engSt s .sce).cur = some l ∧
    l.stage = .executed ∧ l.adapt = none :=
  ⟨{ freshLane 0 0 sceModel 2 with stage := .executed }, setLane (wSceCmd (wCtl 0x01 7 8)) .sce (fun l =>
    { l with stage := .executed }), by decide +kernel⟩

theorem witness_ControlCommandsRun_12 : ∃ (e : Eng) (l : Lane) (s : State), s.wf ∧ e ≠ .sce ∧ engineReady s e = true ∧ (engSt s e).cur =
    some l ∧ (l.stage = .ready ∨ l.stage = .executed ∨ l.stage = .fenced) ∧ (entrySt s l.entry).st = .running ∧ s.flt.recs.length < 32
    :=
  ⟨.te0, { wLane with stage := .fenced }, wStage .te0 .fenced (wCtl 0x02 0 0), by decide +kernel⟩

theorem witness_WaitsEndByCountItemOrTime_1 : ∃ (e : Eng) (s : State), ∃ x, Starts s e 0x08 x ∧ e ≠ .sce ∧ eventWaits s e x.l = false ∧
    x.l.adapt = none ∧ islRuns s 25 = true ∧ ((scSt s (bits x.c.p0 9 0)).val - x.c.p1).toNat < 2 ^ 31 :=
  ⟨.te0, wJob .te0 (wCtl 0x08 0 5), start_witness (by decide +kernel)⟩

theorem witness_WaitsEndByCountItemOrTime_2 : ∃ (e : Eng) (s : State), ∃ x, Starts s e 0x08 x ∧ islRuns s 25 = true ∧ 2 ^ 31 ≤ ((scSt s
    (bits x.c.p0 9 0)).val - x.c.p1).toNat :=
  ⟨.te0, wJob .te0 (wCtl 0x08 0 6), start_witness (by decide +kernel)⟩

theorem witness_WaitsEndByCountItemOrTime_3 : ∃ (e : Eng) (l : Lane) (n : Nat) (tgt : Word) (s : State), s.wf ∧ e ≠ .sce ∧ engineReady s
    e = true ∧ islRuns s 25 = true ∧ (engSt s e).cur = some l ∧ l.stage = .waitSc n tgt ∧ l.adapt = none ∧ eventWaits s e l = false ∧
    ((scSt s n).val - tgt).toNat < 2 ^ 31 :=
  ⟨.te0, { wLane with stage := .waitSc 0 5 }, 0, 5, wStage .te0 (.waitSc 0 5) (wCtl 0x08 0 5), by decide +kernel⟩

theorem witness_WaitsEndByCountItemOrTime_4 : ∃ (e : Eng) (l : Lane) (n : Nat) (tgt : Word) (s : State), s.wf ∧ e ≠ .sce ∧ engineReady s
    e = true ∧ islRuns s 25 = true ∧ (engSt s e).cur = some l ∧ l.stage = .waitSc n tgt ∧ waitCounts s = true ∧ 2 ^ 31 ≤ ((scSt s n).val
    - tgt).toNat ∧ (entrySt s l.entry).st = .running ∧ s.flt.recs.length < 32 :=
  ⟨.te0, { wLane with stage := .waitSc 0 6 }, 0, 6, wStage .te0 (.waitSc 0 6) (wCtl 0x08 0 6), by decide +kernel⟩

theorem witness_WaitsEndByCountItemOrTime_5 : ∃ (e : Eng) (s : State), ∃ x, Starts s e 0x09 x ∧ islRuns s 25 = true ∧ x.l.wbuf = [] ∧
    (scSt s (bits x.c.p0 9 0)).job = true :=
  ⟨.te0, wJob .te0 (wCtl 0x09 0 3), start_witness (by decide +kernel)⟩

theorem witness_WaitsEndByCountItemOrTime_6 : ∃ (e : Eng) (s : State), ∃ x, Starts s e 0x09 x ∧ islRuns s 25 = true ∧ x.l.wbuf = [] ∧
    (scSt s (bits x.c.p0 9 0)).job = false ∧ x.l.entry < 256 :=
  ⟨.te0, wJob .te0 (wCtl 0x09 1 0xFFFF), start_witness (by decide +kernel)⟩

theorem witness_WaitsEndByCountItemOrTime_7 : ∃ (e : Eng) (s : State), ∃ x, Starts s e 0x09 x ∧ islRuns s 25 = true ∧ x.l.wbuf ≠ [] :=
  ⟨.te0, setLane (wJob .te0 (wCtl 0x09 0 3)) .te0 (fun l => { l with wbuf := [(0x10008000, [1])] }), start_witness (by decide +kernel)⟩

theorem witness_WaitsEndByCountItemOrTime_8 : ∃ (e : Eng) (q0 : Nat) (q : Nat) (s : State), ∃ x, Starts s e 0x0A x ∧ e ≠ .sce ∧
    eventWaits s e x.l = false ∧ x.l.adapt = none ∧ Ref.of x.c.a = .queue q0 ∧ portQueue x.en q0 = some q ∧ queueFailed s q = false ∧
    x.c.d0 ≤ (qd s q).vis :=
  ⟨.te0, 3, 3, wJob .te0 (wWords 0x0A 0 0 0x80000003 0 0 4 0 0 0 0 4), start_witness (by decide +kernel)⟩

theorem witness_WaitsEndByCountItemOrTime_9 : ∃ (e : Eng) (q0 : Nat) (q : BitVec 14) (s : State), ∃ x, Starts s e 0x0A x ∧ Ref.of x.c.a
    = .queue q0 ∧ portQueue x.en q0 = some q.toNat ∧ queueFailed s q.toNat = false ∧ (qd s q.toNat).vis < x.c.d0 :=
  ⟨.te0, 3, 3, wJob .te0 (wWords 0x0A 0 0 0x80000003 0 0 5 0 0 0 0 4), start_witness (by decide +kernel)⟩

theorem witness_WaitsEndByCountItemOrTime_10 : ∃ (e : Eng) (q0 : Nat) (q : Nat) (s : State), ∃ x, Starts s e 0x0A x ∧ e ≠ .sce ∧ Ref.of
    x.c.a = .queue q0 ∧ portQueue x.en q0 = some q ∧ queueFailed s q = true ∧ (entrySt s x.l.entry).st = .running ∧ s.flt.recs.length <
    32 :=
  ⟨.te0, 3, 3, updTile (wJob .te0 (wWords 0x0A 0 0 0x80000003 0 0 4 0 0 0 0 4)) .t0 (fun y => { y with failed := true }), start_witness
    (by decide +kernel)⟩

theorem witness_WaitsEndByCountItemOrTime_11 : ∃ (e : Eng) (l : Lane) (q : BitVec 14) (n : Nat) (tmo : Nat) (s : State), s.wf ∧ e ≠ .sce
    ∧ engineReady s e = true ∧ islRuns s 24 = true ∧ (engSt s e).cur = some l ∧ l.stage = .waitTile q n tmo ∧ l.adapt = none ∧
    eventWaits s e l = false ∧ n ≤ (qd s q.toNat).vis :=
  ⟨.te0, { wLane with stage := .waitTile 3 4 4 }, 3, 4, 4, wStage .te0 (.waitTile 3 4 4) (wWords 0x0A 0 0 0x80000003 0 0 4 0 0 0 0 4),
    by decide +kernel⟩

theorem witness_WaitsEndByCountItemOrTime_12 : ∃ (e : Eng) (l : Lane) (q : BitVec 14) (n : Nat) (tmo : Nat) (s : State), s.wf ∧ e ≠ .sce
    ∧ engineReady s e = true ∧ islRuns s 24 = true ∧ (engSt s e).cur = some l ∧ l.stage = .waitTile q n tmo ∧ waitCounts s = true ∧ (qd
    s q.toNat).vis < n ∧ (entrySt s l.entry).st = .running ∧ s.flt.recs.length < 32 :=
  ⟨.te0, { wLane with stage := .waitTile 3 5 4 }, 3, 5, 4, wStage .te0 (.waitTile 3 5 4) (wWords 0x0A 0 0 0x80000003 0 0 5 0 0 0 0 4),
    by decide +kernel⟩

theorem witness_CopiesWriteTheirRows_1 : ∃ (e : Eng) (a o p q : Nat) (s : State), ∃ x, Starts s e 0x10 x ∧ s.memOk ∧ (e = .sce →
    x.l.wbuf = []) ∧ Ref.of x.c.a = .mem a ∧ Ref.of x.c.o = .mem o ∧ reach s e a (pitched x.c.d0 x.c.d1 x.c.p0.toNat) false = some p ∧
    reach s e o (pitched x.c.d0 x.c.d1 x.c.p1.toNat) true = some q ∧ Apart p (pitched x.c.d0 x.c.d1 x.c.p0.toNat) q (pitched x.c.d0
    x.c.d1 x.c.p1.toNat) ∧ eccHit (viewOf s e) p (pitched x.c.d0 x.c.d1 x.c.p0.toNat) = false :=
  ⟨.dm0, 0x10008000, 0x10009000, 0x10008000, 0x10009000, wStore (wJob .dm0 (wWords 0x10 0 0 0x8000 0 0x9000 4 2 0 0 8 4)) 0x10008000
    [0x44332211, 0x88776655, 0x00020001, 0x3], start_witness (by decide +kernel)⟩

theorem witness_CopiesWriteTheirRows_2_gath : ∃ (c : Instr) (opc : Nat) (e : Eng) (a o b p q : Nat) (ob : Opd) (vs : List Nat) (s :
    State), ∃ x, Starts s e opc x ∧ (c = .gath e ∧ opc = 0x11 ∨ c = .scat e ∧ opc = 0x12) ∧ s.memOk ∧ Ref.of x.c.a = .mem a ∧ Ref.of
    x.c.b = .mem b ∧ Ref.of x.c.o = .mem o ∧ opdRole x.os .b = some ob ∧ opdEcc s e ob 0 ob.span = false ∧ indices s e x ob = vs.map
    some ∧ reach s e a (if opc = 0x11 then x.c.p0.toNat * x.c.d0 else x.c.d0 * x.c.d1) false = some p ∧ reach s e o (if opc = 0x11 then
    x.c.d0 * x.c.d1 else x.c.p0.toNat * x.c.d0) true = some q ∧ Apart p (if opc = 0x11 then x.c.p0.toNat * x.c.d0 else x.c.d0 * x.c.d1)
    q (if opc = 0x11 then x.c.d0 * x.c.d1 else x.c.p0.toNat * x.c.d0) ∧ eccHit (viewOf s e) p (if opc = 0x11 then x.c.p0.toNat * x.c.d0
    else x.c.d0 * x.c.d1) = false :=
  ⟨.gath .dm0, 0x11, .dm0, 0x10008000, 0x10009000, 0x10008008, 0x10008000, 0x10009000, { tensor .b 0x8008 false 4 with align := 4 }, [1,
    2], wStore (wJob .dm0 (wWords 0x11 0x40 0 0x8000 0x8008 0x9000 4 2 0 0 3 0)) 0x10008000 [0x44332211, 0x88776655, 0x00020001, 0x3],
    start_witness (by decide +kernel)⟩

theorem witness_CopiesWriteTheirRows_2_scat : ∃ (c : Instr) (opc : Nat) (e : Eng) (a o b p q : Nat) (ob : Opd) (vs : List Nat) (s :
    State), ∃ x, Starts s e opc x ∧ (c = .gath e ∧ opc = 0x11 ∨ c = .scat e ∧ opc = 0x12) ∧ s.memOk ∧ Ref.of x.c.a = .mem a ∧ Ref.of
    x.c.b = .mem b ∧ Ref.of x.c.o = .mem o ∧ opdRole x.os .b = some ob ∧ opdEcc s e ob 0 ob.span = false ∧ indices s e x ob = vs.map
    some ∧ reach s e a (if opc = 0x11 then x.c.p0.toNat * x.c.d0 else x.c.d0 * x.c.d1) false = some p ∧ reach s e o (if opc = 0x11 then
    x.c.d0 * x.c.d1 else x.c.p0.toNat * x.c.d0) true = some q ∧ Apart p (if opc = 0x11 then x.c.p0.toNat * x.c.d0 else x.c.d0 * x.c.d1)
    q (if opc = 0x11 then x.c.d0 * x.c.d1 else x.c.p0.toNat * x.c.d0) ∧ eccHit (viewOf s e) p (if opc = 0x11 then x.c.p0.toNat * x.c.d0
    else x.c.d0 * x.c.d1) = false :=
  ⟨.scat .dm0, 0x12, .dm0, 0x10008000, 0x10009000, 0x10008008, 0x10008000, 0x10009000, { tensor .b 0x8008 false 4 with align := 4 }, [2,
    1], wStore (wJob .dm0 (wWords 0x12 0x40 0 0x8000 0x8008 0x9000 4 2 0 0 3 0)) 0x10008000 [0x44332211, 0x88776655, 0x00010002, 0x3],
    start_witness (by decide +kernel)⟩

theorem witness_CopiesWriteTheirRows_3 : ∃ (e : Eng) (a : Nat) (q0 : Nat) (q : Nat) (p : Nat) (n : Nat) (s : State), ∃ x, Starts s e
    0x10 x ∧ s.memOk ∧ Ref.of x.c.a = .mem a ∧ Ref.of x.c.o = .queue q0 ∧ portQueue x.en q0 = some q ∧ reach s e a (pitched x.c.d0
    x.c.d1 x.c.p0.toNat) false = some p ∧ eccHit (viewOf s e) p (pitched x.c.d0 x.c.d1 x.c.p0.toNat) = false ∧ x.l.begun = false ∧ n =
    x.c.d0 * x.c.d1 / (qd s q).item ∧ n ≤ qFree s q ∧ RingInTsr (qd s q) :=
  ⟨.te0, 0x10008000, 2, 2, 0x10008000, 2, wStore (wJob .te0 (wWords 0x10 0 0 0x8000 0 0x80000002 64 2 0 0 64 64)) 0x10008000 [5, 6],
    start_witness (by decide +kernel)⟩

theorem witness_CopiesWriteTheirRows_4 : ∃ (e : Eng) (o : Nat) (q0 : Nat) (q : Nat) (p : Nat) (n : Nat) (s : State), ∃ x, Starts s e
    0x10 x ∧ s.memOk ∧ Ref.of x.c.o = .mem o ∧ Ref.of x.c.a = .queue q0 ∧ portQueue x.en q0 = some q ∧ reach s e o (pitched x.c.d0
    x.c.d1 x.c.p1.toNat) true = some p ∧ x.l.begun = false ∧ n = x.c.d0 * x.c.d1 / (qd s q).item ∧ n ≤ (qd s q).vis ∧ (∀ k < n, eccHit s
    ((qd s q).addr ((qd s q).rp + k)) (qd s q).item = false) :=
  ⟨.te0, 0x10008000, 1, 1, 0x10008000, 2, wStore (wJob .te0 (wWords 0x10 0 0 0x80000001 0 0x8000 64 2 0 0 64 64)) 0x10001000 [5, 6],
    start_witness (by decide +kernel)⟩

theorem witness_CopiesWriteTheirRows_5 : ∃ (e : Eng) (a : Nat) (q0 : Nat) (q : Nat) (p : Nat) (s : State), ∃ x, Starts s e 0x0C x ∧
    s.memOk ∧ Ref.of x.c.a = .mem a ∧ Ref.of x.c.o = .queue q0 ∧ portQueue x.en q0 = some q ∧ reach s e a (x.c.d0 * (qd s q).item) false
    = some p ∧ eccHit (viewOf s e) p (x.c.d0 * (qd s q).item) = false ∧ x.l.begun = false ∧ x.c.d0 ≤ qFree s q ∧ RingInTsr (qd s q) :=
  ⟨.te0, 0x10008000, 2, 2, 0x10008000, wStore (wJob .te0 (wWords 0x0C 0 0 0x8000 0 0x80000002 2 0 0 0 0 0)) 0x10008000 [5, 6],
    start_witness (by decide +kernel)⟩

theorem witness_CopiesWriteTheirRows_6 : ∃ (e : Eng) (a : Nat) (q0 : Nat) (q : BitVec 14) (p : Nat) (s : State), ∃ x, Starts s e 0x0C x
    ∧ s.memOk ∧ Ref.of x.c.a = .mem a ∧ Ref.of x.c.o = .queue q0 ∧ portQueue x.en q0 = some q.toNat ∧ x.c.d0 = 1 ∧ reach s e a (qd s
    q.toNat).item false = some p ∧ eccHit (viewOf s e) p (qd s q.toNat).item = false ∧ x.l.begun = false ∧ (qd s q.toNat).ovf = true ∧
    (qd s q.toNat).depth ≤ (qd s q.toNat).occ ∧ RingInTsr (qd s q.toNat) :=
  ⟨.te0, 0x10008000, 2, 2, 0x10008000, updQd (wStore (wJob .te0 (wWords 0x0C 0 0 0x8000 0 0x80000002 1 0 0 0 0 0)) 0x10008000 [5, 6]) 2
    (fun d => { d with ovf := true, wp := (d.rp + d.depth) % d.ring, pp := (d.rp + d.depth) % d.ring, fp := d.rp }), start_witness
    (by decide +kernel)⟩

theorem witness_CopiesWriteTheirRows_7 : ∃ (e : Eng) (o : Nat) (q0 : Nat) (q : Nat) (p : Nat) (s : State), ∃ x, Starts s e 0x0D x ∧
    s.memOk ∧ Ref.of x.c.o = .mem o ∧ Ref.of x.c.a = .queue q0 ∧ portQueue x.en q0 = some q ∧ reach s e o (x.c.d0 * (qd s q).item) true
    = some p ∧ x.l.begun = false ∧ x.c.d0 ≤ (qd s q).vis ∧ (∀ k < x.c.d0, eccHit s ((qd s q).addr ((qd s q).rp + k)) (qd s q).item =
    false) :=
  ⟨.te0, 0x10008000, 1, 1, 0x10008000, wStore (wJob .te0 (wWords 0x0D 0 0 0x80000001 0 0x8000 2 0 0 0 0 0)) 0x10001000 [5, 6],
    start_witness (by decide +kernel)⟩

theorem witness_ComputedResultsAreStored_1_mma : ∃ (r : Nat × (Eng → Instr) × (State → Eng → Start → Made)) (e : Eng) (s : State), r ∈
    computeRows ∧ ∃ x, Starts s e r.1 x ∧ s.memOk ∧ (e = .sce → x.l.wbuf = []) ∧ operandEcc s e x.os = false ∧ ∀ o ∈ x.os, opdQueue x.en
    o = none :=
  ⟨(0x20, Instr.mma, prodMade), .te0, wMem (wJob .te0 (wWords 0x20 0x522 0 0x8000 0x8100 0x9000 2 2 3 0 0xC0000000 0)), by simp
    [computeRows], start_witness (by decide +kernel)⟩

theorem witness_ComputedResultsAreStored_1_conv : ∃ (r : Nat × (Eng → Instr) × (State → Eng → Start → Made)) (e : Eng) (s : State), r ∈
    computeRows ∧ ∃ x, Starts s e r.1 x ∧ s.memOk ∧ (e = .sce → x.l.wbuf = []) ∧ operandEcc s e x.os = false ∧ ∀ o ∈ x.os, opdQueue x.en
    o = none :=
  ⟨(0x21, Instr.conv, prodMade), .te1, wMem (wJob .te1 (wWords 0x21 0x522 0 0x8000 0x8100 0x9000 3 3 1 1 0x11001122 0xC0000000)), by
    simp [computeRows], start_witness (by decide +kernel)⟩

theorem witness_ComputedResultsAreStored_1_dwcv : ∃ (r : Nat × (Eng → Instr) × (State → Eng → Start → Made)) (e : Eng) (s : State), r ∈
    computeRows ∧ ∃ x, Starts s e r.1 x ∧ s.memOk ∧ (e = .sce → x.l.wbuf = []) ∧ operandEcc s e x.os = false ∧ ∀ o ∈ x.os, opdQueue x.en
    o = none :=
  ⟨(0x22, Instr.dwcv, prodMade), .te2, wMem (wJob .te2 (wWords 0x22 0x522 0 0x8000 0x8100 0x9000 3 3 1 0 0x11001122 0xC0000000)), by
    simp [computeRows], start_witness (by decide +kernel)⟩

theorem witness_ComputedResultsAreStored_1_pool : ∃ (r : Nat × (Eng → Instr) × (State → Eng → Start → Made)) (e : Eng) (s : State), r ∈
    computeRows ∧ ∃ x, Starts s e r.1 x ∧ s.memOk ∧ (e = .sce → x.l.wbuf = []) ∧ operandEcc s e x.os = false ∧ ∀ o ∈ x.os, opdQueue x.en
    o = none :=
  ⟨(0x23, Instr.pool, plainMade), .te3, wMem (wJob .te3 (wWords 0x23 0x202 0 0x8000 0 0x9000 3 3 1 0 0x11001122 0)), by simp
    [computeRows], start_witness (by decide +kernel)⟩

theorem witness_ComputedResultsAreStored_1_red : ∃ (r : Nat × (Eng → Instr) × (State → Eng → Start → Made)) (e : Eng) (s : State), r ∈
    computeRows ∧ ∃ x, Starts s e r.1 x ∧ s.memOk ∧ (e = .sce → x.l.wbuf = []) ∧ operandEcc s e x.os = false ∧ ∀ o ∈ x.os, opdQueue x.en
    o = none :=
  ⟨(0x24, Instr.red, plainMade), .te0, wMem (wJob .te0 (wWords 0x24 0x202 0 0x8000 0 0x9000 3 2 0 0 0 0)), by simp [computeRows],
    start_witness (by decide +kernel)⟩

theorem witness_ComputedResultsAreStored_1_vop : ∃ (r : Nat × (Eng → Instr) × (State → Eng → Start → Made)) (e : Eng) (s : State), r ∈
    computeRows ∧ ∃ x, Starts s e r.1 x ∧ s.memOk ∧ (e = .sce → x.l.wbuf = []) ∧ operandEcc s e x.os = false ∧ ∀ o ∈ x.os, opdQueue x.en
    o = none :=
  ⟨(0x28, Instr.vop, plainMade), .te0, wMem (wJob .te0 (wWords 0x28 0x222 0 0x8000 0x8100 0x9000 3 2 0 0 0 0)), by simp [computeRows],
    start_witness (by decide +kernel)⟩

theorem witness_ComputedResultsAreStored_1_act : ∃ (r : Nat × (Eng → Instr) × (State → Eng → Start → Made)) (e : Eng) (s : State), r ∈
    computeRows ∧ ∃ x, Starts s e r.1 x ∧ s.memOk ∧ (e = .sce → x.l.wbuf = []) ∧ operandEcc s e x.os = false ∧ ∀ o ∈ x.os, opdQueue x.en
    o = none :=
  ⟨(0x29, Instr.act, plainMade), .te0, wMem (wJob .te0 (wWords 0x29 0x202 0 0x8000 0x8100 0x9000 3 2 0 0 0 0)), by simp [computeRows],
    start_witness (by decide +kernel)⟩

theorem witness_ComputedResultsAreStored_1_qscan : ∃ (r : Nat × (Eng → Instr) × (State → Eng → Start → Made)) (e : Eng) (s : State), r ∈
    computeRows ∧ ∃ x, Starts s e r.1 x ∧ s.memOk ∧ (e = .sce → x.l.wbuf = []) ∧ operandEcc s e x.os = false ∧ ∀ o ∈ x.os, opdQueue x.en
    o = none :=
  ⟨(0x30, Instr.qscan, plainMade), .su, wMem (wJob .su (wWords 0x30 0x808 0 0x8000 0 0x9000 3 2 0 0 0x8200 0)), by simp [computeRows],
    start_witness (by decide +kernel)⟩

theorem witness_ComputedResultsAreStored_1_qpack : ∃ (r : Nat × (Eng → Instr) × (State → Eng → Start → Made)) (e : Eng) (s : State), r ∈
    computeRows ∧ ∃ x, Starts s e r.1 x ∧ s.memOk ∧ (e = .sce → x.l.wbuf = []) ∧ operandEcc s e x.os = false ∧ ∀ o ∈ x.os, opdQueue x.en
    o = none :=
  ⟨(0x31, Instr.qpack, packMade), .su, wMem (wJob .su (wWords 0x31 0x288 0 0x8000 0x8100 0x9000 3 2 0 0 0x8200 0)), by simp
    [computeRows], start_witness (by decide +kernel)⟩

theorem witness_ComputedResultsAreStored_1_qunpk : ∃ (r : Nat × (Eng → Instr) × (State → Eng → Start → Made)) (e : Eng) (s : State), r ∈
    computeRows ∧ ∃ x, Starts s e r.1 x ∧ s.memOk ∧ (e = .sce → x.l.wbuf = []) ∧ operandEcc s e x.os = false ∧ ∀ o ∈ x.os, opdQueue x.en
    o = none :=
  ⟨(0x32, Instr.qunpk, plainMade), .su, wMem (wJob .su (wWords 0x32 0x802 0 0x8000 0 0x9000 3 2 0 0 0x8220 0)), by simp [computeRows],
    start_witness (by decide +kernel)⟩

theorem witness_ComputedResultsAreStored_1_rscl : ∃ (r : Nat × (Eng → Instr) × (State → Eng → Start → Made)) (e : Eng) (s : State), r ∈
    computeRows ∧ ∃ x, Starts s e r.1 x ∧ s.memOk ∧ (e = .sce → x.l.wbuf = []) ∧ operandEcc s e x.os = false ∧ ∀ o ∈ x.os, opdQueue x.en
    o = none :=
  ⟨(0x33, Instr.rscl, plainMade), .su, wMem (wJob .su (wWords 0x33 0x205 0 0x8000 0 0x9000 3 2 0 0 0x06004000 0)), by simp
    [computeRows], start_witness (by decide +kernel)⟩

theorem witness_ComputedResultsAreStored_1_queueOut : ∃ (r : Nat × (Eng → Instr) × (State → Eng → Start → Made)) (e : Eng) (q n : Nat)
    (s : State), r ∈ computeRows ∧ ∃ x, Starts s e r.1 x ∧ s.memOk ∧ (e = .sce → x.l.wbuf = []) ∧ operandEcc s e x.os = false ∧ opdRole
    x.os .o = some (wOpd x .o) ∧ opdQueue x.en (wOpd x .o) = some q ∧ (∀ o ∈ x.os, o ≠ wOpd x .o → opdQueue x.en o = none) ∧ x.l.begun =
    false ∧ (r.2.2 s e x).out.length = n * (qd s q).item ∧ (wOpd x .o).qbytes = n * (qd s q).item ∧ n ≤ qFree s q ∧ q ≠ 16383 ∧
    RingInTsr (qd s q) :=
  ⟨(0x28, Instr.vop, plainMade), .te0, 2, 1, wMem (wJob .te0 (wWords 0x28 0x222 0 0x8000 0x8100 0x80000002 64 1 0 0 0 0)), by simp
    [computeRows], start_witness (by decide +kernel)⟩

theorem witness_ComputedResultsAreStored_1_queueIn : ∃ (r : Nat × (Eng → Instr) × (State → Eng → Start → Made)) (e : Eng) (q : Nat) (s :
    State), r ∈ computeRows ∧ ∃ x, Starts s e r.1 x ∧ s.memOk ∧ (e = .sce → x.l.wbuf = []) ∧ operandEcc s e x.os = false ∧ opdRole x.os
    .a = some (wOpd x .a) ∧ opdQueue x.en (wOpd x .a) = some q ∧ (∀ o ∈ x.os, o ≠ wOpd x .a → opdQueue x.en o = none) ∧ x.l.begun =
    false ∧ (wOpd x .a).qbytes ≤ (qd s q).vis * (qd s q).item ∧ q ≠ 16383 ∧ ∀ k < (qd s q).vis, eccHit s ((qd s q).addr ((qd s q).rp +
    k)) (qd s q).item = false :=
  ⟨(0x24, Instr.red, plainMade), .te0, 1, wMem (wJob .te0 (wWords 0x24 0x202 0 0x80000001 0 0x9000 64 2 0 0 0 0)), by simp
    [computeRows], start_witness (by decide +kernel)⟩

theorem witness_SaturationIsExactAndCounted_1 : ∃ (n : Fin 64) (v : Word) (s : State), WinReaches (0x40330408 + 16 * n.val) s ∧ ¬(0 <
    (satSt s n.val).thr.toNat ∧ (satSt s n.val).cnt.toNat < (satSt s n.val).thr.toNat ∧ (satSt s n.val).thr.toNat ≤ v.toNat) :=
  ⟨63, 0xFFFFFFFF, wRun, by decide +kernel⟩

theorem witness_SaturationIsExactAndCounted_2 : ∃ (n : Fin 64) (v : Word) (s : State), WinReaches (0x40330408 + 16 * n.val) s ∧ 0 <
    (satSt s n.val).thr.toNat ∧ (satSt s n.val).cnt.toNat < (satSt s n.val).thr.toNat ∧ (satSt s n.val).thr.toNat ≤ v.toNat :=
  ⟨63, 5, { wRun with sats := upd wRun.sats 63 (fun c => { c with thr := 5, cnt := 4 }) }, by decide +kernel⟩

theorem witness_SaturationIsExactAndCounted_3 : ∃ (e : Eng) (m : Nat) (job : BitVec 16) (off : Nat) (kinds : List Nat) (n : Nat) (s :
    State), s.wf ∧ e ≠ .sce ∧ n < 64 :=
  ⟨.su, 0, 9, 0, [0, 2, 2], 63, { wRun with sats := upd wRun.sats 63 (fun c => { c with cfg := 0x80100400, cnt := 0xFFFFFFFE }) },
    by decide +kernel⟩

theorem witness_SaturationIsExactAndCounted_4 : ∃ (p : Product) (fa : Nat) (fb : Nat) (a : Codes) (b : Codes) (za : Int) (zb : Nat →
    Int) (bias : Nat → Int) (o : Nat), o < p.n :=
  ⟨mmaShape 1 1 1, 2, 2, #[], #[], 0, (fun _ => 0), (fun _ => 0), 0, by decide⟩

theorem witness_ElementCodesSurvive_1 : ∃ (f : Nat) (pad : BitVec 4) (cs : List Nat), f ≤ 9 ∧ (∀ c ∈ cs, c < 2 ^ fBits f) :=
  ⟨0, 3, [15, 0, 7], by decide +kernel⟩

theorem witness_ElementCodesSurvive_2 : ∃ (f : Nat) (c : Nat) (x : Flo), 6 ≤ f ∧ f ≤ 9 ∧ c < 2 ^ fBits f ∧ readFloat f c = .num x false
    :=
  ⟨9, 0x8001, ⟨true, 1, -24⟩, by decide +kernel⟩

theorem witness_JobsAreAdmittedStartedAndRestarted_1 : ∃ (s : State) (q : Nat) (p : Nat) (rest : List (Nat × Nat)) (i : Nat) (ws : List
    Word), s.wf ∧ s.ldg.service = (q, p) :: rest ∧ (qd s q).cls = clsCmd ∧ (qd s q).rp ≠ p ∧ (qd s q).vis ≠ 0 ∧ admissionRuns s = true ∧
    s.ldg.used < 256 ∧ islRuns s 24 = true ∧ itemsHeld s (qd s q) (qd s q).rp 1 = false ∧ i = (s.ldg.head + s.ldg.used) % 256 ∧ ws =
    descWords s q ∧ rejectReason s ws = none :=
  ⟨wAdmit 5, 4, 1, [], 1, 5 :: List.replicate 15 0, by decide +kernel⟩

theorem witness_JobsAreAdmittedStartedAndRestarted_2 : ∃ (s : State) (q : Nat) (p : Nat) (rest : List (Nat × Nat)) (i : Nat) (ws : List
    Word) (r : Nat), s.wf ∧ s.ldg.service = (q, p) :: rest ∧ (qd s q).cls = clsCmd ∧ (qd s q).rp ≠ p ∧ (qd s q).vis ≠ 0 ∧ admissionRuns
    s = true ∧ s.ldg.used < 256 ∧ islRuns s 24 = true ∧ itemsHeld s (qd s q) (qd s q).rp 1 = false ∧ i = (s.ldg.head + s.ldg.used) % 256
    ∧ ws = descWords s q ∧ rejectReason s ws = some r ∧ s.flt.recs.length < 32 :=
  ⟨wAdmit 9, 4, 1, [], 1, 9 :: List.replicate 15 0, 3, by decide +kernel⟩

theorem witness_JobsAreAdmittedStartedAndRestarted_3 : ∃ (i : Fin 256) (s : State), s.wf ∧ (entrySt s i.val).st = .admitted ∧ ownsAll s
    i.val = true ∧ pdOn s 5 = true ∧ islRuns s 21 = true ∧ islRuns s 26 = true :=
  ⟨0, wEntry (fun e => { e with st := .admitted, started := false }), by decide +kernel⟩

theorem witness_JobsAreAdmittedStartedAndRestarted_4 : ∃ (i : Fin 256) (s : State), s.wf ∧ (entrySt s i.val).st = .restarting ∧ pdOn s 5
    = true ∧ islRuns s 21 = true ∧ islRuns s 24 = true ∧ islRuns s 26 = true :=
  ⟨0, wEntry (fun e => { e with st := .restarting }), by decide +kernel⟩

theorem witness_TheHeadEntryCommits_1 : ∃ (s : State) (e : Entry), s.wf ∧ e = entrySt s s.ldg.head ∧ 0 < s.ldg.used ∧ pdOn s 9 = true ∧
    islRuns s 26 = true ∧ islRuns s 24 = true ∧ e.st = .done :=
  ⟨wEntry (fun e => { e with st := .done, notify := true, defer := [(1, 3)] }),
    { Entry.free with st := .done, job := 9, budget := 1, started := true, notify := true, defer := [(1, 3)] }, by decide +kernel⟩

theorem witness_TheHeadEntryCommits_2 : ∃ (s : State) (e : Entry), s.wf ∧ e = entrySt s s.ldg.head ∧ 0 < s.ldg.used ∧ pdOn s 9 = true ∧
    islRuns s 26 = true ∧ islRuns s 24 = true ∧ (e.st = .failing ∨ e.st = .rejected) :=
  ⟨wEntry (fun e => { e with st := .failing, ports := [⟨true, 3, 3⟩] }),
    { Entry.free with st := .failing, job := 9, budget := 1, started := true, ports := [⟨true, 3, 3⟩] }, by decide +kernel⟩

theorem witness_TheHeadEntryCommits_3 : ∃ (f : Fr) (v : Word) (s : State), Reaches f 0x91 v s ∧ bit v 0 = true :=
  ⟨wFr 0x91 1, 1, wRun, by decide +kernel⟩

theorem witness_InstallsEndReadyOrEmpty_1 : ∃ (f : Fr) (v : Word) (s : State), Reaches f 0x82 v s ∧ bits v 31 28 = 1 ∧ s.cap.inst.isSome
    = true :=
  ⟨wFr 0x82 0x10000000, 0x10000000, wBadInst, by decide +kernel⟩

theorem witness_InstallsEndReadyOrEmpty_2 : ∃ (f : Fr) (v : Word) (s : State) (k : Byte), Reaches f 0x82 v s ∧ bits v 31 28 = 1 ∧
    s.cap.inst = none ∧ installRefusal s (bits v 20 16) (bit v 8) = some k :=
  ⟨wFr 0x82 0x10010100, 0x10010100, wCap (fun c => { c with active := upd c.active 1 (fun _ => some true) }), 1, by decide +kernel⟩

theorem witness_InstallsEndReadyOrEmpty_3 : ∃ (f : Fr) (v : Word) (s : State), s.wf ∧ Reaches f 0x82 v s ∧ bits v 31 28 = 1 ∧ s.cap.inst
    = none ∧ installRefusal s (bits v 20 16) (bit v 8) = none :=
  ⟨wFr 0x82 0x10000000, 0x10000000, wLoam, by decide +kernel⟩

theorem witness_InstallsEndReadyOrEmpty_4 : ∃ (s : State) (i : Inst), (s.wf ∧ s.cap.inst = some i ∧ loaderRuns s = true ∧ i.fault = none
    ∧ i.silt = false ∧ i.model < 32 ∧ eccHit s s.cap.addr.toNat s.cap.len.toNat = false ∧ stagedDigest (staged s) = i.digest) ∧ ∃ p,
    loamPlan s (Xim.of (imageOf s (staged s) (CapHdr.of (staged s)))) = .ok p ∧ True :=
  ⟨wInst wLoam false, ⟨0, false, none, stagedDigest (staged wLoam), .empty, false⟩, by decide +kernel, ok_witness (by decide +kernel)⟩

theorem witness_InstallsEndReadyOrEmpty_5 : ∃ (s : State) (i : Inst), (s.cap.inst = some i ∧ loaderRuns s = true ∧ i.fault = none ∧
    i.silt = true ∧ eccHit s s.cap.addr.toNat s.cap.len.toNat = false ∧ stagedDigest (staged s) = i.digest) ∧ ∃ p, siltPlan s (Xim.of
    (imageOf s (staged s) (CapHdr.of (staged s)))) = .ok p ∧ p.silt = some (0x28001020, 1, 129) :=
  ⟨wInst wSilt true, ⟨0, false, none, stagedDigest (staged wSilt), .empty, true⟩, by decide +kernel, ok_witness (by decide +kernel)⟩

theorem witness_InstallsEndReadyOrEmpty_6 : ∃ (s : State) (i : Inst) (lf : LoadFault), s.wf ∧ s.cap.inst = some i ∧ loaderRuns s = true
    ∧ i.fault = some lf ∧ s.flt.recs.length < 32 :=
  ⟨wBadInst, ⟨3, true, some wBad, 0, .empty, false⟩, wBad, by decide +kernel⟩

theorem witness_InstallsEndReadyOrEmpty_7 : ∃ (s : State) (i : Inst) (lf : LoadFault), s.wf ∧ s.cap.inst = some i ∧ loaderRuns s = true
    ∧ i.fault = none ∧ s.flt.recs.length < 32 ∧ (eccHit s s.cap.addr.toNat s.cap.len.toNat = true ∧ lf =
    { code := 0x3F, cas := 3, offset := 0, qid := none, isl := 21 } ∨ eccHit s s.cap.addr.toNat s.cap.len.toNat = false ∧ stagedDigest
    (staged s) ≠ i.digest ∧ lf = { code := 0x31, cas := 4, offset := 0, qid := none, isl := 21 }) :=
  ⟨updCap (wInst wLoam false) (fun c => { c with inst := some ⟨0, false, none, 1, .empty, false⟩ }), ⟨0, false, none, 1, .empty, false⟩,
    ⟨0x31, 4, 0, none, 21⟩, by decide +kernel⟩

theorem witness_InstallsEndReadyOrEmpty_8 : ∃ (f : Fr) (v : Word) (s : State) (i : Inst), s.wf ∧ Reaches f 0x82 v s ∧ bits v 31 28 = 4 ∧
    s.cap.inst = some i ∧ s.flt.recs.length < 32 :=
  ⟨wFr 0x82 0x40000000, 0x40000000, wBadInst, ⟨3, true, some wBad, 0, .empty, false⟩, by decide +kernel⟩

theorem witness_SwapsActivateSlots_1 : ∃ (f : Fr) (v : Word) (s : State), s.wf ∧ Reaches f 0x82 v s ∧ bits v 31 28 = 2 ∧ s.cap.swap =
    none ∧ swapRefusal s (bits v 20 16) (bit v 8) = none ∧ swapBlows s (bits v 20 16) (bit v 8) = false :=
  ⟨wFr 0x82 0x201F0100, 0x201F0100, wCap (fun c =>
    { c with slots := upd c.slots 63 (fun x => { x with st := .ready, arb := 2, adv := true }) }), by decide +kernel⟩

theorem witness_SwapsActivateSlots_2 : ∃ (f : Fr) (v : Word) (s : State), Reaches f 0x82 v s ∧ bits v 31 28 = 2 ∧ s.cap.swap = none ∧
    swapRefusal s (bits v 20 16) (bit v 8) = none ∧ swapBlows s (bits v 20 16) (bit v 8) = true :=
  ⟨wFr 0x82 0x201F0100, 0x201F0100,
    { wCap (fun c => { c with slots := upd c.slots 63 (fun x => { x with st := .ready, arb := 2, adv := true }) }) with boot := { wRun.boot with lcNow := 3 } },
    by decide +kernel⟩

theorem witness_SwapsActivateSlots_3 : ∃ (f : Fr) (v : Word) (s : State) (k : Nat), Reaches f 0x82 v s ∧ bits v 31 28 = 2 ∧ s.cap.swap =
    none ∧ swapRefusal s (bits v 20 16) (bit v 8) = some k :=
  ⟨wFr 0x82 0x201F0000, 0x201F0000, wCap (fun c =>
    { c with slots := upd c.slots 63 (fun x => { x with st := .ready, arb := 2, adv := true }) }), 5, by decide +kernel⟩

theorem witness_SwapsActivateSlots_4 : ∃ (f : Fr) (v : Word) (s : State) (c : Instr), (c = .capSwap f v ∧ bits v 31 28 = 2 ∨ c =
    .capUnload f v ∧ bits v 31 28 = 3) ∧ Reaches f 0x82 v s ∧ s.cap.swap.isSome = true :=
  ⟨wFr 0x82 0x20000000, 0x20000000, wCap (fun c => { c with swap := some (31, true) }), .capSwap (wFr 0x82 0x20000000) 0x20000000,
    by decide +kernel⟩

theorem witness_SwapsActivateSlots_5 : ∃ (s : State) (m : Nat) (b : Bool), s.wf ∧ s.cap.swap = some (m, b) ∧ m < 32 ∧ (slotSt s m b).arb
    ≤ 64 :=
  ⟨wCap (fun c =>
    { c with slots := upd c.slots 63 (fun x => { x with st := .ready, arb := 64, adv := true }), swap := some (31, true) }), 31, true,
    by decide +kernel⟩

theorem witness_SwapsActivateSlots_6 : ∃ (s : State) (m : Nat) (b : Bool) (k : Nat), s.cap.swap = some (m, b) ∧ k < (slotSt s m b).arb ∧
    k < 64 ∧ s.fuses.rollback.getLsbD k = false ∧ s.flt.recs.length < 32 :=
  ⟨wCap (fun c =>
    { c with slots := upd c.slots 63 (fun x => { x with st := .ready, arb := 2, adv := true }), swap := some (31, true) }), 31, true, 1,
    by decide +kernel⟩

theorem witness_SwapsActivateSlots_7 : ∃ (f : Fr) (v : Word) (s : State), s.wf ∧ Reaches f 0x82 v s ∧ bits v 31 28 = 3 ∧ s.cap.swap =
    none ∧ slotRecorded s (bits v 20 16) (bit v 8) = false ∧ (slotSt s (bits v 20 16) (bit v 8)).st = .ready :=
  ⟨wFr 0x82 0x301F0100, 0x301F0100, wCap (fun c =>
    { c with slots := upd c.slots 63 (fun x => { x with st := .ready, arb := 2, adv := true }), active := upd c.active 31 (fun _ => some true) }),
    by decide +kernel⟩

theorem witness_SwapsActivateSlots_8 : ∃ (f : Fr) (v : Word) (s : State) (k : Nat), Reaches f 0x82 v s ∧ bits v 31 28 = 3 ∧ s.cap.swap =
    none ∧ (slotRecorded s (bits v 20 16) (bit v 8) = true ∧ k = 2 ∨ slotRecorded s (bits v 20 16) (bit v 8) = false ∧ ((slotSt s (bits
    v 20 16) (bit v 8)).st = .loading ∧ k = 3 ∨ (slotSt s (bits v 20 16) (bit v 8)).st = .empty ∧ k = 7)) :=
  ⟨wFr 0x82 0x30000000, 0x30000000, wRun, 7, by decide +kernel⟩

theorem witness_TransitionsWipeBlowAndReset_1 : ∃ (f : Fr) (v : Word) (s : State), Reaches f 0x81 v s ∧ 1 ≤ lcCode v ∧ lcCode v ≤ 3 ∧
    (lcCode v = 2 → life s ≠ .sealed) ∧ s.lc.first = none ∧ lcKey v = 0x6C3E :=
  ⟨wFr 0x81 0x6C3E2000, 0x6C3E2000, wRun, by decide +kernel⟩

theorem witness_TransitionsWipeBlowAndReset_2 : ∃ (f : Fr) (v : Word) (s : State), Reaches f 0x81 v s ∧ 1 ≤ lcCode v ∧ lcCode v ≤ 3 ∧
    (lcCode v = 2 → life s ≠ .sealed) ∧ (s.lc.first = none ∧ lcKey v ≠ 0x6C3E ∨ ∃ w, s.lc.first = some w ∧ (lcKey v ≠ 0x93C1 ∨ lcFields
    v ≠ w)) :=
  ⟨wFr 0x81 0x12342000, 0x12342000, wRun, by decide +kernel, by decide +kernel, by decide +kernel, by decide +kernel, Or.inl
    (by decide +kernel)⟩

theorem witness_TransitionsWipeBlowAndReset_3 : ∃ (f : Fr) (v : Word) (s : State), Reaches f 0x81 v s ∧ (lcCode v = 0 ∨ 3 < lcCode v) :=
  ⟨wFr 0x81 0x6C3E0000, 0x6C3E0000, wRun, by decide +kernel⟩

theorem witness_TransitionsWipeBlowAndReset_4 : ∃ (s : State), s.lc.first.isSome = true :=
  ⟨wLc (fun l => { l with first := some 0x1001 }), by decide +kernel⟩

theorem witness_TransitionsWipeBlowAndReset_5 : ∃ (f : Fr) (v : Word) (s : State) (c : Nat), Reaches f 0x81 v s ∧ Second v 1 s ∧
    transitionRefusal s (lcTarget v) = some c :=
  ⟨wFr 0x81 0x93C11000, 0x93C11000, wLc (fun l => { l with first := some 0x1000 }), 4, by decide +kernel⟩

theorem witness_TransitionsWipeBlowAndReset_6 : ∃ (f : Fr) (v : Word) (s : State), Reaches f 0x81 v s ∧ Second v 1 s ∧ transitionRefusal
    s (lcTarget v) = none ∧ s.isl.length = 64 :=
  ⟨wFr 0x81 0x93C11003, 0x93C11003, wLc (fun l => { l with first := some 0x1003 }), by decide +kernel⟩

theorem witness_TransitionsWipeBlowAndReset_7 : ∃ (m : WipeMem) (s : State) (tgt : BitVec 2) (bad : Bool), s.wiping.contains m = true ∧
    s.lc.op = .wiping tgt bad ∧ s.wiping.filter (· != m) ≠ [] :=
  ⟨.tsr, { wLc (fun l => { l with op := .wiping 1 false }) with wiping := [.tsr, .sce] }, 1, false, by decide +kernel⟩

theorem witness_TransitionsWipeBlowAndReset_8 : ∃ (m : WipeMem) (s : State) (tgt : BitVec 2), s.wiping.contains m = true ∧ s.lc.op =
    .wiping tgt false ∧ s.wiping.filter (· != m) = [] :=
  ⟨.tsr, { wLc (fun l => { l with op := .wiping 1 false }) with wiping := [.tsr], mem := [(0x10000000, 1), (0x20000000, 2)] }, 1,
    by decide +kernel⟩

theorem witness_TransitionsWipeBlowAndReset_9 : ∃ (m : WipeMem) (s : State) (tgt : BitVec 2), s.wiping.contains m = true ∧ s.lc.op =
    .wiping tgt false ∧ s.wiping.filter (· != m) ≠ [] ∧ s.flt.recs.length < 32 :=
  ⟨.tsr, { wLc (fun l => { l with op := .wiping 1 false }) with wiping := [.tsr, .sce] }, 1, by decide +kernel⟩

theorem witness_TransitionsWipeBlowAndReset_10 : ∃ (m : WipeMem) (s : State) (e : Bool) (tgt : BitVec 2) (bad : Bool), s.wf ∧
    s.wiping.contains m = true ∧ s.lc.op = .wiping tgt bad ∧ (e || bad) = true ∧ s.wiping.filter (· != m) = [] ∧ s.pwr.st ≠ .off ∧
    s.boot.por = false :=
  ⟨.tsr, { wLc (fun l => { l with op := .wiping 1 true }) with wiping := [.tsr] }, false, 1, true, by decide +kernel⟩

theorem witness_TransitionsWipeBlowAndReset_11 : ∃ (m : WipeMem) (e : Bool) (s : State), s.wiping.contains m = true ∧ (∀ tgt bad,
    s.lc.op ≠ .wiping tgt bad) :=
  ⟨.sce, true, { wRun with wiping := [.tsr, .sce] }, by decide +kernel, fun _ _ h => nomatch h⟩

theorem witness_TransitionsWipeBlowAndReset_12 : ∃ (s : State) (tgt : BitVec 2), s.wf ∧ s.lc.op = .blowing tgt ∧ inOff s = false ∧
    s.boot.por = false :=
  ⟨wLc (fun l => { l with op := .blowing 3 }), 3, by decide +kernel⟩

theorem witness_TransitionsWipeBlowAndReset_13 : ∃ (s : State) (tgt : BitVec 2) (i : Nat) (b : Nat), s.wf ∧ s.lc.op = .blowing tgt ∧
    ((lcBits tgt).filter (lcIntact s.fuses))[i]? = some b ∧ s.pwr.st ≠ .off ∧ s.boot.por = false ∧ s.flt.recs.length < 32 :=
  ⟨wLc (fun l => { l with op := .blowing 3 }), 3, 0, 0, by decide +kernel⟩

theorem witness_KeysAreProgrammedAndRevoked_1 : ∃ (f : Fr) (v : Word) (s : State), Reaches f 0x81 v s ∧ lcCode v = 2 ∧ life s = .sealed
    :=
  ⟨wFr 0x81 0x6C3E2310, 0x6C3E2310, { wRun with boot := { wRun.boot with lcNow := 3 } }, by decide +kernel⟩

theorem witness_KeysAreProgrammedAndRevoked_2 : ∃ (f : Fr) (v : Word) (s : State) (c : Nat), Reaches f 0x81 v s ∧ Second v 2 s ∧ life s
    ≠ .sealed ∧ (lcBusy s = some c ∨ lcBusy s = none ∧ keyprogBad s (lcEnc v) (lcIndex v) = true ∧ c = 0) :=
  ⟨wFr 0x81 0x93C12310, 0x93C12310, wLc (fun l => { l with first := some 0x2310, ksrc := 0x10800000 }), 0, by decide +kernel⟩

theorem witness_KeysAreProgrammedAndRevoked_3 : ∃ (f : Fr) (v : Word) (s : State), Reaches f 0x81 v s ∧ Second v 2 s ∧ life s ≠ .sealed
    ∧ lcBusy s = none ∧ keyprogBad s (lcEnc v) (lcIndex v) = false :=
  ⟨wFr 0x81 0x93C12310, 0x93C12310, wLc (fun l => { l with first := some 0x2310, ksrc := 0x107FFFE0 }), by decide +kernel⟩

theorem witness_KeysAreProgrammedAndRevoked_4 : ∃ (s : State) (enc : Bool) (i : Nat) (k : BitVec 512), s.memOk ∧ s.lc.op = .keyprog enc
    i true k ∧ s.fuses.sig.length = 4 ∧ s.fuses.enc.length = 4 ∧ i < 4 ∧ 0x10000000 ≤ s.lc.ksrc.toNat ∧ s.lc.ksrc.toNat + 64 ≤
    0x10800000 :=
  ⟨updLc (wStore wRun 0x10000000 [1, 2, 3]) (fun l => { l with op := .keyprog true 3 true 7, ksrc := 0x10000000 }), true, 3, 7,
    by decide +kernel⟩

theorem witness_KeysAreProgrammedAndRevoked_5 : ∃ (e : BlowEnd) (s : State) (enc : Bool) (i : Nat) (k : BitVec 512), s.memOk ∧ s.lc.op =
    .keyprog enc i false k ∧ s.flt.recs.length < 32 ∧ 0x10000000 ≤ s.lc.ksrc.toNat ∧ s.lc.ksrc.toNat + 64 ≤ 0x10800000 :=
  ⟨.good, updLc (wStore wRun 0x10000000 [1, 2, 3]) (fun l => { l with op := .keyprog false 0 false 7, ksrc := 0x10000000 }), false, 0,
    7, by decide +kernel⟩

theorem witness_KeysAreProgrammedAndRevoked_6 : ∃ (s : State) (enc : Bool) (i : Nat) (k : BitVec 512), s.memOk ∧ s.lc.op = .keyprog enc
    i true k ∧ s.fuses.sig.length = 4 ∧ s.fuses.enc.length = 4 ∧ i < 4 ∧ s.flt.recs.length < 32 ∧ 0x10000000 ≤ s.lc.ksrc.toNat ∧
    s.lc.ksrc.toNat + 64 ≤ 0x10800000 :=
  ⟨updLc (wStore wRun 0x10000000 [1, 2, 3]) (fun l => { l with op := .keyprog true 3 true 7, ksrc := 0x10000000 }), true, 3, 7,
    by decide +kernel⟩

theorem witness_KeysAreProgrammedAndRevoked_7 : ∃ (f : Fr) (v : Word) (s : State), Reaches f 0x81 v s ∧ Second v 3 s ∧ lcBusy s = none ∧
    lcArmed s = none ∧ s.fuses.sig.length = 4 ∧ s.fuses.enc.length = 4 :=
  ⟨wFr 0x81 0x93C13300, 0x93C13300,
    { wLc (fun l => { l with first := some 0x3300 }) with fuses := { wRun.fuses with sig := upd wRun.fuses.sig 3 (fun _ => ⟨5, true, false⟩) } },
    by decide +kernel⟩

theorem witness_KeysAreProgrammedAndRevoked_8 : ∃ (f : Fr) (v : Word) (s : State) (c : Nat), Reaches f 0x81 v s ∧ Second v 3 s ∧ (lcBusy
    s = some c ∨ lcBusy s = none ∧ lcArmed s = some c) :=
  ⟨wFr 0x81 0x93C13300, 0x93C13300, updHp (wLc (fun l => { l with first := some 0x3300 })) (fun h => { h with armed := true }), 3,
    by decide +kernel⟩

theorem witness_TestAccessAndPatchesAreGuarded_1 : ∃ (f : Fr) (v : Word) (s : State), Reaches f 0x87 v s ∧ bits v 31 16 = 0xDB6E :=
  ⟨wFr 0x87 0xDB6E0002, 0xDB6E0002, wLc (fun l => { l with dbgEn := false }), by decide +kernel⟩

theorem witness_TestAccessAndPatchesAreGuarded_2 : ∃ (f : Fr) (v : Word) (s : State), Reaches f 0x87 v s ∧ bits v 31 16 = 0xDB00 :=
  ⟨wFr 0x87 0xDB000002, 0xDB000002, wRun, by decide +kernel⟩

theorem witness_TestAccessAndPatchesAreGuarded_3 : ∃ (s : State), tapAnswers s = true :=
  ⟨wRun, by decide +kernel⟩

theorem witness_TestAccessAndPatchesAreGuarded_4 : ∃ (code : BitVec 4) (s : State), tapAnswers s = true ∧ tapPermits s code.toNat = true
    :=
  ⟨0, wLc (fun l => { l with dbgExtest := true }), by decide +kernel⟩

theorem witness_TestAccessAndPatchesAreGuarded_5 : ∃ (code : BitVec 4) (s : State), tapAnswers s = true ∧ tapPermits s code.toNat =
    false :=
  ⟨8, wRun, by decide +kernel⟩

theorem witness_TestAccessAndPatchesAreGuarded_6 : ∃ (cells : List (Nat × Bool)) (s : State), Instr.wf (.extest cells) = true ∧
    tapAnswers s = true :=
  ⟨[(308, true), (483, false)], wLc (fun l => { l with dbgExtest := true }), by decide +kernel⟩

theorem witness_TestAccessAndPatchesAreGuarded_7 : ∃ (cells : List (Nat × Bool)) (s : State), Instr.wf (.samplePreload cells) = true ∧
    tapAnswers s = true :=
  ⟨[(483, false)], wRun, by decide +kernel⟩

theorem witness_TestAccessAndPatchesAreGuarded_8 : ∃ (dr : BitVec 69) (s : State), tapAnswers s = true ∧ tapPermits s 3 = false :=
  ⟨5, wLc (fun l => { l with dbgEn := false }), by decide +kernel⟩

theorem witness_TestAccessAndPatchesAreGuarded_9 : ∃ (dr : BitVec 69) (s : State), tapAnswers s = true ∧ tapPermits s 3 = true ∧
    s.jtag.acc = none ∧ (bits dr 68 67 = 1 ∨ bits dr 68 67 = 2) :=
  ⟨0x1200000000000002A8, wRun, by decide +kernel⟩

theorem witness_TestAccessAndPatchesAreGuarded_10 : ∃ (s : State) (a : Word) (v : Word), s.jtag.acc = some (false, a, v) ∧ winWaits s
    a.toNat false (lateNow s a.toNat) = false :=
  ⟨wJtag (fun j => { j with acc := some (false, 0x10000000, 0) }), 0x10000000, 0, by decide +kernel⟩

theorem witness_TestAccessAndPatchesAreGuarded_11 : ∃ (s : State) (a : Word) (v : Word), s.memOk ∧ s.jtag.acc = some (true, a, v) ∧
    winWaits s a.toNat true (lateNow s a.toNat) = false ∧ winStatus s a.toNat true (lateNow s a.toNat) = stOk ∧ (0x10000000 ≤ a.toNat ∧
    a.toNat < 0x40000000 ∨ isClay a.toNat = true ∧ isClay (a.toNat + 3) = true) :=
  ⟨wJtag (fun j => { j with acc := some (true, 0x10000000, 0xFFFFFFFF) }), 0x10000000, 0xFFFFFFFF, by decide +kernel⟩

theorem witness_TestAccessAndPatchesAreGuarded_12 : ∃ (s : State) (a : Word) (v : Word) (st : Nat), s.jtag.acc = some (true, a, v) ∧
    winWaits s a.toNat true (lateNow s a.toNat) = false ∧ winStatus s a.toNat true (lateNow s a.toNat) = st ∧ st ≠ stOk :=
  ⟨wJtag (fun j => { j with acc := some (true, 0, 7) }), 0, 7, stAddr, by decide +kernel⟩

theorem witness_TestAccessAndPatchesAreGuarded_14 : ∃ (dr : BitVec 106) (s : State), tapAnswers s = true ∧ s.boot.mfg = false :=
  ⟨0, wRun, by decide +kernel⟩

theorem witness_TestAccessAndPatchesAreGuarded_15 : ∃ (dr : BitVec 106) (s : State), tapAnswers s = true ∧ s.boot.mfg = true ∧
    s.jtag.patch = none ∧ bits dr 105 104 = 1 :=
  ⟨BitVec.ofNat 106 (2 ^ 104 + 31 * 2 ^ 99), { wRun with boot := { wRun.boot with mfg := true } }, by decide +kernel⟩

theorem witness_TestAccessAndPatchesAreGuarded_16 : ∃ (dr : BitVec 106) (s : State), tapAnswers s = true ∧ s.boot.mfg = true ∧
    s.jtag.patch = none ∧ bits dr 105 104 = 2 :=
  ⟨BitVec.ofNat 106 (2 ^ 105 + 31 * 2 ^ 99 + 5 * 8), { wRun with boot := { wRun.boot with mfg := true } }, by decide +kernel⟩

theorem witness_TestAccessAndPatchesAreGuarded_17 : ∃ (s : State) (i : Nat) (r : BitVec 96), s.jtag.patch = some (i, r) ∧ i <
    s.fuses.patch.length :=
  ⟨{ wRun with boot := { wRun.boot with mfg := true }, jtag := { wRun.jtag with patch := some (31, 5) } }, 31, 5, by decide +kernel⟩

theorem witness_TestAccessAndPatchesAreGuarded_18 : ∃ (s : State) (i : Nat) (r : BitVec 96), s.jtag.patch = some (i, r) ∧ i <
    s.fuses.patch.length :=
  ⟨{ wRun with boot := { wRun.boot with mfg := true }, jtag := { wRun.jtag with patch := some (31, 5) } }, 31, 5, by decide +kernel⟩

theorem witness_TileLinksTrainAndFail_1 : ∃ (x : Tile) (s : State), linkLive s x = true ∧ (tileSt s x).link = .training ∧ s.clk.relock1
    = false ∧ (tileSt s x).req = false :=
  ⟨.t0, wRun, by decide +kernel⟩

theorem witness_TileLinksTrainAndFail_2 : ∃ (x : Tile) (s : State), linkLive s x = true ∧ (tileSt s x).link = .training ∧ s.clk.relock1
    = false ∧ (tileSt s x).req = true :=
  ⟨.t0, wTile (fun y => { y with req := true, count := 1 }), by decide +kernel⟩

theorem witness_TileLinksTrainAndFail_3 : ∃ (x : Tile) (s : State), linkLive s x = true ∧ (tileSt s x).link = .up :=
  ⟨.t0, wTile (fun y => { y with link := .up, replays := 255 }), by decide +kernel⟩

theorem witness_TileLinksTrainAndFail_4 : ∃ (f : Fr) (t1 : Bool) (v : Word) (recent : Bool) (s : State), s.wf ∧ Reaches f (if t1 then
    0xB2 else 0xB1) v s ∧ bit v 31 = true ∧ (tileSt s (if t1 then .t1 else .t0)).req = false :=
  ⟨wFr (if false then 0xB2 else 0xB1) 0x80000000, false, 0x80000000, false, wTile (fun y => { y with link := .up }), by decide +kernel⟩

theorem witness_TileLinksTrainAndFail_5 : ∃ (x : Tile) (s : State), linkLive s x = true ∧ (tileSt s x).defer = true ∧ (tileSt s x).link
    = .up :=
  ⟨.t0, wTile (fun y => { y with link := .up, defer := true, req := true }), by decide +kernel⟩

theorem witness_TileLinksTrainAndFail_6 : ∃ (x : Tile) (k : LinkFail) (s : State), linkLive s x = true ∧ (tileSt s x).link = .up ∧ (∀ e
    ∈ loamEngs, (engSt s e).cur = none) ∧ s.outstanding = [] ∧ hostAccess s (fun a => tileOf a == some x) = false ∧ x ≠ .io :=
  ⟨.t0, .laneLock, wTile (fun y => { y with link := .up }), by decide +kernel⟩

theorem witness_TileLinksTrainAndFail_7 : ∃ (k : LinkFail) (s : State), s.wf ∧ linkLive s .io = true ∧ (tileSt s .io).link = .up ∧ (∀ e
    ∈ loamEngs, (engSt s e).cur = none) ∧ s.outstanding = [] :=
  ⟨.laneLock, updTile wRun .io (fun y => { y with link := .up }), by decide +kernel⟩

theorem witness_TileLinksTrainAndFail_8 : ∃ (x : Tile) (k : LinkFail) (e : Eng) (l : Lane) (s : State), s.wf ∧ linkLive s x = true ∧
    (tileSt s x).link = .up ∧ e ∈ loamEngs ∧ (engSt s e).cur = some l ∧ l.stage ≠ .abandon ∧ movesTile s x e = true ∧ (entrySt s
    l.entry).st = .running :=
  ⟨.t0, .replays, .te0, { wLane with stage := .executed }, wStage .te0 .executed (wWords 0x10 0 0 0x40000000 0 0x9000 4 2 0 0 8 4),
    by decide +kernel⟩

theorem witness_TileLinksTrainAndFail_9 : ∃ (x : Tile) (k : LinkFail) (s : State), s.wf ∧ linkLive s x = true ∧ (tileSt s x).link = .up
    ∧ s.flt.recs.length < 32 :=
  ⟨.t0, .replays, wTile (fun y => { y with link := .up }), by decide +kernel⟩

theorem witness_TileLinksTrainAndFail_10 : ∃ (x : Tile) (s : State), linkLive s x = true ∧ (tileSt s x).link = .retrain :=
  ⟨.t0, wTile (fun y => { y with link := .retrain, recovery := true, req := true }), by decide +kernel⟩

theorem witness_TileLinksTrainAndFail_11 : ∃ (x : Tile) (s : State), s.wf ∧ linkLive s x = true ∧ (tileSt s x).link = .retrain ∧
    s.flt.recs.length < 32 :=
  ⟨.t0, wTile (fun y => { y with link := .retrain }), by decide +kernel⟩

theorem witness_CsiFramesAreWholeOrGone_1 : ∃ (r : Csi) (v : Word) (s : State), WinReaches (0x403E0400 + csiIx r * 0x80) s ∧ bit (csiSt
    s r).ctrl 0 = false ∧ bit v 0 = true :=
  ⟨.r0, 1, wRun, by decide +kernel⟩

theorem witness_CsiFramesAreWholeOrGone_2 : ∃ (r : Csi) (fl : Fin 4) (v : Word) (s : State), WinReaches (0x403E0410 + csiIx r * 0x80 + 8
    * fl.val) s ∧ bit (csiSt s r).ctrl 0 = false :=
  ⟨.r1, 3, 0x8A800005, wRun, by decide +kernel⟩

theorem witness_CsiFramesAreWholeOrGone_3 : ∃ (r : Csi) (fl : Fin 4) (v : Word) (s : State), WinReaches (0x403E0410 + csiIx r * 0x80 + 8
    * fl.val) s ∧ bit (csiSt s r).ctrl 0 = true :=
  ⟨.r0, 0, 0x8A800005, wCsi id, by decide +kernel⟩

theorem witness_CsiFramesAreWholeOrGone_4 : ∃ (r : Csi) (vc : BitVec 2) (fnum : BitVec 16) (s : State) (f : Nat), s.wf ∧ csiSees s r =
    true ∧ filters.filter (fun k => filtVc (csiSt s r) k vc) = [f] ∧ openFrame (csiSt s r) f = none :=
  ⟨.r0, 0, 0xFFFF, wCsi id, 0, by decide +kernel⟩

theorem witness_CsiFramesAreWholeOrGone_5 : ∃ (r : Csi) (vc : BitVec 2) (fnum : BitVec 16) (s : State) (f : Nat) (fr : CsiFrame) (q :
    Nat), s.wf ∧ csiSees s r = true ∧ filters.filter (fun k => filtVc (csiSt s r) k vc) = [f] ∧ openFrame (csiSt s r) f = some fr ∧ q =
    filtQid (csiSt s r) f ∧ (qd s q).cls = clsSrc :=
  ⟨.r0, 0, 0xFFFF, wCsi (fun c => { c with open_ := upd c.open_ 0 (fun _ => some (wCsiFrame 2)) }), 0, wCsiFrame 2, 5,
    by decide +kernel⟩

theorem witness_CsiFramesAreWholeOrGone_6 : ∃ (r : Csi) (pk : CsiPacket) (s : State) (f : Nat) (fr : CsiFrame) (q : Nat) (n : Nat), s.wf
    ∧ s.memOk ∧ Instr.wf (.csiLine r pk) = true ∧ csiSees s r = true ∧ pk.headerTwoBit = false ∧ pk.vcx = false ∧ pk.crcOk = true ∧
    filters.find? (fun k => filtVc (csiSt s r) k pk.vc && bits (filtW0 (csiSt s r) k) 27 22 == pk.dt.toNat) = some f ∧ openFrame (csiSt
    s r) f = some fr ∧ fr.lines < filtLines (csiSt s r) f ∧ (storedLine (filtW0 (csiSt s r) f) pk.payload).length = filtBytes (csiSt s
    r) f ∧ q = filtQid (csiSt s r) f ∧ (qd s q).cls = clsSrc ∧ (qd s q).scope = scTxn ∧ (qd s q).ovf = false ∧ RingInTsr (qd s q) ∧ n =
    (fr.bytes ++ storedLine (filtW0 (csiSt s r) f) pk.payload).length / (qd s q).item ∧ n ≤ (qd s q).depth :=
  ⟨.r0, ⟨0, false, 0x2A, false, true, List.replicate 64 9⟩, wCsi (fun c =>
    { c with open_ := upd c.open_ 0 (fun _ => some (wCsiFrame 0)) }), 0, wCsiFrame 0, 5, 1, by decide +kernel⟩

theorem witness_CsiFramesAreWholeOrGone_7 : ∃ (r : Csi) (vc : BitVec 2) (s : State) (f : Nat) (fr : CsiFrame) (q : Nat), s.wf ∧ csiSees
    s r = true ∧ filters.filter (fun k => filtVc (csiSt s r) k vc) = [f] ∧ openFrame (csiSt s r) f = some fr ∧ q = filtQid (csiSt s r) f
    ∧ (qd s q).cls = clsSrc :=
  ⟨.r0, 0, wCsi (fun c => { c with open_ := upd c.open_ 0 (fun _ => some (wCsiFrame 2)) }), 0, wCsiFrame 2, 5, by decide +kernel⟩

theorem witness_CsiFramesAreWholeOrGone_8 : ∃ (r : Csi) (s : State), bit (csiSt s r).ctrl 0 = true ∧ linkLive s .io = true :=
  ⟨.r0, wCsi id, by decide +kernel⟩

end Sys2Proof.Tests
end

/-! ### The identity of the control port (00 R10) -/

namespace Sys2Proof.Machine

open Sys2Proof

/-- Below index 0x10 stand only registers of I57, so a read there is a read of its own registers (06 R256). -/
theorem regRead_below_0x10 (s : State) {i : Nat} (hi : i < 0x10) : regRead s i = cpReg s i := by
  have outside (lo : Nat) (hlo : 0x10 ≤ lo) : ¬lo ≤ i := by omega
  have other (m : Nat) (hm : 0x10 ≤ m) : i ≠ m := by omega
  simp [regRead, outside, other]

/-- `CP_ID` is a constant: no field of the state enters it (00 R10). -/
@[simp] theorem cpReg_cpId (s : State) : cpReg s 0x00 = 0x4F580B04 := by
  simp [cpReg]

/-- Settles O23: index 0x00 is one of I57's own registers, and that register is a constant. -/
theorem portIdIsFixed : Obligations.PortIdIsFixed := by
  unfold Obligations.PortIdIsFixed
  intro s
  calc regRead s 0x00 = cpReg s 0x00 := regRead_below_0x10 s (by decide)
    _ = 0x4F580B04 := cpReg_cpId s

end Sys2Proof.Machine

/-! ### Device time after a power-on reset (05 R203) -/

namespace Sys2Proof.Machine

open Sys2Proof

/-- Index 0x73 stands for `TIM_ERRBOUND` (05 R208). -/
theorem regRead_timErrBound (s : State) : regRead s 0x73 = BitVec.ofNat 32 (errBound s) := by
  simp [regRead, timRead]

/-- A bound at its top reads as unknown, whatever a slew still owes (05 R200). -/
theorem errBound_of_errTop_le {s : State} (h : errTop ≤ s.tim.err) : errBound s = 0xFFFFFFFF := by
  have whole : 0xFFFFFFFF ≤ cdiv s.tim.err errScale := by
    unfold cdiv
    rw [Nat.le_div_iff_mul_le (by decide)]
    simp only [errTop, errScale] at h ⊢
    omega
  exact Nat.min_eq_left (Nat.le_trans whole (Nat.le_add_right _ _))

/-- Without a time set, every stamp is UNCERTAIN (05 R197). -/
theorem qualNow_of_uncertain {s : State} (h : s.tim.uncertain = true) : qualNow s = 0b11 := by
  simp [qualNow, h]

/-- Device time is lost (05 R203). -/
@[simp] theorem powerOn_dt (s : State) (c : PorCause) (pr : Probe) : (powerOn s c pr).tim.dt = 0 := rfl

/-- The error bound is at its top (05 R200, R203). -/
@[simp] theorem powerOn_err (s : State) (c : PorCause) (pr : Probe) : (powerOn s c pr).tim.err = errTop := rfl

/-- The time is uncertain until it is set (05 R197, R203). -/
@[simp] theorem powerOn_uncertain (s : State) (c : PorCause) (pr : Probe) : (powerOn s c pr).tim.uncertain = true := rfl

/-- Settles O9: the reset values of the DT count, the error bound and the uncertainty each give what the host reads. -/
theorem powerOnResetSetsTime : Obligations.PowerOnResetSetsTime := by
  unfold Obligations.PowerOnResetSetsTime
  intro c pr s
  refine ⟨powerOn s c pr, rfl, powerOn_dt s c pr, ?_, qualNow_of_uncertain (powerOn_uncertain s c pr)⟩
  have bound : errBound (powerOn s c pr) = 0xFFFFFFFF :=
    errBound_of_errTop_le (Nat.le_of_eq (powerOn_err s c pr).symm)
  calc regRead (powerOn s c pr) 0x73 = BitVec.ofNat 32 (errBound (powerOn s c pr)) := regRead_timErrBound _
    _ = 0xFFFFFFFF := by simp [bound]

end Sys2Proof.Machine
